-- ==== Sys2Proof/Word.lean ====
section
/-! DEFINITION. The word types of the block (00_scope.md R6): bytes, 16-bit addresses, 16-bit halves and the 35-bit request word. -/

namespace Sys2Proof

/-- One byte: DATA_W = 8 (R6). -/
abbrev Byte := BitVec 8

/-- A CPU address: ADDR_W = 16 (R6). -/
abbrev Addr := BitVec 16

/-- The 16-bit store data `req_wdata[15:0]` and load data `rsp_rdata[15:0]` (R40, R41). -/
abbrev Half := BitVec 16

/-- A request word: 35 bits, op at 34:32, addr at 31:16, wdata at 15:0 (R91). -/
abbrev RequestWord := BitVec 35

end Sys2Proof
end

