-- ==== Sys2Proof/Config.lean ====
section
/-! DEFINITION. What is fixed for one block: the parameters a model takes as arguments (00_scope.md R7), and the free values the spec leaves unspecified. -/

namespace Sys2Proof

/-- The six Bank Controller variants (R20). The register's tag encoding is `Controller.tag`. -/
inductive Controller where
  | typeNone
  | type1
  | type2
  | type3
  | type4
  | type5
deriving DecidableEq, Repr, Inhabited

/-- The parameters of R7 as plain data, so that a claim over every state is a claim over every
parameter value. The defaults are the spec's (D7, D12, D13). See log 13. -/
structure Config where
  /-- WRAM_BANK_N_OFFSET, 0x0000 to 0x1000. -/
  wramBankNOffset : BitVec 13 := 0x1000#13
  /-- IE_REG_ID, the id driven on the I/O port for 0xFFFF. -/
  ieRegId : Byte := 0xFF#8
  /-- STRICT_UNIMPL: LD16 and ST16 are refused (R120). -/
  strictUnimpl : Bool := false
deriving DecidableEq, Repr

/-- R7 bounds WRAM_BANK_N_OFFSET so that the bank-N window lies inside working RAM. -/
abbrev Config.wf (c : Config) : Bool := decide (c.wramBankNOffset.toNat ≤ 0x1000)

/-! The free values (93_implementation_defined.md U1 to U4). Each is applied to the number of a draw,
which the counter `State.draws` supplies; nothing constrains the value. See log 7, 8 and 9. -/

/-- The byte at an offset of a memory whose contents draw `n` left unspecified (R27, U1, U2, U3). -/
opaque Config.freeByte : (n : Nat) → (offset : Nat) → Byte

/-- `controllerType` after a failed RESET, after DEINIT, or at power-up (U3, U4). -/
opaque Config.freeController : (n : Nat) → Controller

/-- `currentBank` after a failed RESET, after DEINIT, or at power-up (U3, U4). -/
opaque Config.freeBank : (n : Nat) → BitVec 7

/-- `romBankBase` after a failed RESET, after DEINIT, or at power-up (U3, U4). -/
opaque Config.freeRomBase : (n : Nat) → BitVec 21

/-- `workingRamBankBase` after a failed RESET, after DEINIT, or at power-up (U3, U4). -/
opaque Config.freeWramBase : (n : Nat) → BitVec 13

end Sys2Proof
end

