-- ==== Sys2Proof/Syntax.lean ====
section
/-! DEFINITION. The instructions of the block: one constructor per row of spec/opcode_table.json, which is one (operation, address sub-range) pair of the request word (30_encoding.md R90, R91, R102). -/

namespace Sys2Proof

/-- A request. Every constructor carries the request's address, because `region_id` is decoded from
it in every operation (R42); the lifecycle operations ignore it otherwise (R92). ST8 carries the store
byte `wdata[7:0]`, ST16 the 16-bit store data; no other operation reads `wdata` (R92). -/
inductive Instr where
  /-- LD8.ROM0 (R122), addresses 0x0000 to 0x3FFF. -/
  | ld8Rom0 (a : Addr)
  /-- LD8.ROMN (R123), addresses 0x4000 to 0x7FFF. -/
  | ld8RomN (a : Addr)
  /-- LD8.VRAM (R124), addresses 0x8000 to 0x9FFF. -/
  | ld8Vram (a : Addr)
  /-- LD8.EXTRAM (R126), addresses 0xA000 to 0xBFFF. -/
  | ld8Extram (a : Addr)
  /-- LD8.WRAM0 (R128), addresses 0xC000 to 0xCFFF. -/
  | ld8Wram0 (a : Addr)
  /-- LD8.WRAMN (R130), addresses 0xD000 to 0xDFFF. -/
  | ld8WramN (a : Addr)
  /-- LD8.ECHO.0 (R132), addresses 0xE000 to 0xEFFF. -/
  | ld8Echo0 (a : Addr)
  /-- LD8.ECHO.1 (R132), addresses 0xF000 to 0xF7FF. -/
  | ld8Echo1 (a : Addr)
  /-- LD8.ECHO.2 (R132), addresses 0xF800 to 0xFBFF. -/
  | ld8Echo2 (a : Addr)
  /-- LD8.ECHO.3 (R132), addresses 0xFC00 to 0xFDFF. -/
  | ld8Echo3 (a : Addr)
  /-- LD8.OAM.0 (R134), addresses 0xFE00 to 0xFE7F. -/
  | ld8Oam0 (a : Addr)
  /-- LD8.OAM.1 (R134), addresses 0xFE80 to 0xFE9F. -/
  | ld8Oam1 (a : Addr)
  /-- LD8.UNUSABLE.0 (R136), addresses 0xFEA0 to 0xFEBF. -/
  | ld8Unusable0 (a : Addr)
  /-- LD8.UNUSABLE.1 (R136), addresses 0xFEC0 to 0xFEFF. -/
  | ld8Unusable1 (a : Addr)
  /-- LD8.IO (R138), addresses 0xFF00 to 0xFF7F. -/
  | ld8Io (a : Addr)
  /-- LD8.HRAM.0 (R140), addresses 0xFF80 to 0xFFBF. -/
  | ld8Hram0 (a : Addr)
  /-- LD8.HRAM.1 (R140), addresses 0xFFC0 to 0xFFDF. -/
  | ld8Hram1 (a : Addr)
  /-- LD8.HRAM.2 (R140), addresses 0xFFE0 to 0xFFEF. -/
  | ld8Hram2 (a : Addr)
  /-- LD8.HRAM.3 (R140), addresses 0xFFF0 to 0xFFF7. -/
  | ld8Hram3 (a : Addr)
  /-- LD8.HRAM.4 (R140), addresses 0xFFF8 to 0xFFFB. -/
  | ld8Hram4 (a : Addr)
  /-- LD8.HRAM.5 (R140), addresses 0xFFFC to 0xFFFD. -/
  | ld8Hram5 (a : Addr)
  /-- LD8.HRAM.6 (R140), addresses 0xFFFE to 0xFFFE. -/
  | ld8Hram6 (a : Addr)
  /-- LD8.IE (R142), addresses 0xFFFF to 0xFFFF. -/
  | ld8Ie (a : Addr)
  /-- ST8.MBC.S0 (R121), addresses 0x0000 to 0x1FFF. -/
  | st8MbcS0 (a : Addr) (v : Byte)
  /-- ST8.MBC.S1 (R121), addresses 0x2000 to 0x3FFF. -/
  | st8MbcS1 (a : Addr) (v : Byte)
  /-- ST8.MBC.S2 (R121), addresses 0x4000 to 0x5FFF. -/
  | st8MbcS2 (a : Addr) (v : Byte)
  /-- ST8.MBC.S3 (R121), addresses 0x6000 to 0x7FFF. -/
  | st8MbcS3 (a : Addr) (v : Byte)
  /-- ST8.VRAM (R125), addresses 0x8000 to 0x9FFF. -/
  | st8Vram (a : Addr) (v : Byte)
  /-- ST8.EXTRAM (R127), addresses 0xA000 to 0xBFFF. -/
  | st8Extram (a : Addr) (v : Byte)
  /-- ST8.WRAM0 (R129), addresses 0xC000 to 0xCFFF. -/
  | st8Wram0 (a : Addr) (v : Byte)
  /-- ST8.WRAMN (R131), addresses 0xD000 to 0xDFFF. -/
  | st8WramN (a : Addr) (v : Byte)
  /-- ST8.ECHO.0 (R133), addresses 0xE000 to 0xEFFF. -/
  | st8Echo0 (a : Addr) (v : Byte)
  /-- ST8.ECHO.1 (R133), addresses 0xF000 to 0xF7FF. -/
  | st8Echo1 (a : Addr) (v : Byte)
  /-- ST8.ECHO.2 (R133), addresses 0xF800 to 0xFBFF. -/
  | st8Echo2 (a : Addr) (v : Byte)
  /-- ST8.ECHO.3 (R133), addresses 0xFC00 to 0xFDFF. -/
  | st8Echo3 (a : Addr) (v : Byte)
  /-- ST8.OAM.0 (R135), addresses 0xFE00 to 0xFE7F. -/
  | st8Oam0 (a : Addr) (v : Byte)
  /-- ST8.OAM.1 (R135), addresses 0xFE80 to 0xFE9F. -/
  | st8Oam1 (a : Addr) (v : Byte)
  /-- ST8.UNUSABLE.0 (R137), addresses 0xFEA0 to 0xFEBF. -/
  | st8Unusable0 (a : Addr) (v : Byte)
  /-- ST8.UNUSABLE.1 (R137), addresses 0xFEC0 to 0xFEFF. -/
  | st8Unusable1 (a : Addr) (v : Byte)
  /-- ST8.IO (R139), addresses 0xFF00 to 0xFF7F. -/
  | st8Io (a : Addr) (v : Byte)
  /-- ST8.HRAM.0 (R141), addresses 0xFF80 to 0xFFBF. -/
  | st8Hram0 (a : Addr) (v : Byte)
  /-- ST8.HRAM.1 (R141), addresses 0xFFC0 to 0xFFDF. -/
  | st8Hram1 (a : Addr) (v : Byte)
  /-- ST8.HRAM.2 (R141), addresses 0xFFE0 to 0xFFEF. -/
  | st8Hram2 (a : Addr) (v : Byte)
  /-- ST8.HRAM.3 (R141), addresses 0xFFF0 to 0xFFF7. -/
  | st8Hram3 (a : Addr) (v : Byte)
  /-- ST8.HRAM.4 (R141), addresses 0xFFF8 to 0xFFFB. -/
  | st8Hram4 (a : Addr) (v : Byte)
  /-- ST8.HRAM.5 (R141), addresses 0xFFFC to 0xFFFD. -/
  | st8Hram5 (a : Addr) (v : Byte)
  /-- ST8.HRAM.6 (R141), addresses 0xFFFE to 0xFFFE. -/
  | st8Hram6 (a : Addr) (v : Byte)
  /-- ST8.IE (R143), addresses 0xFFFF to 0xFFFF. -/
  | st8Ie (a : Addr) (v : Byte)
  /-- LD16 (R144), addresses 0x0000 to 0xFFFF. -/
  | ld16 (a : Addr)
  /-- ST16 (R145), addresses 0x0000 to 0xFFFF. -/
  | st16 (a : Addr) (d : Half)
  /-- INIT (R250), addresses 0x0000 to 0xFFFF. -/
  | init (a : Addr)
  /-- RESET (R252), addresses 0x0000 to 0xFFFF. -/
  | reset (a : Addr)
  /-- DEINIT (R256), addresses 0x0000 to 0xFFFF. -/
  | deinit (a : Addr)
deriving DecidableEq, Repr

/-- The request's address `req_addr` (R91). -/
def Instr.addr : Instr → Addr
  | .ld8Rom0 a => a
  | .ld8RomN a => a
  | .ld8Vram a => a
  | .ld8Extram a => a
  | .ld8Wram0 a => a
  | .ld8WramN a => a
  | .ld8Echo0 a => a
  | .ld8Echo1 a => a
  | .ld8Echo2 a => a
  | .ld8Echo3 a => a
  | .ld8Oam0 a => a
  | .ld8Oam1 a => a
  | .ld8Unusable0 a => a
  | .ld8Unusable1 a => a
  | .ld8Io a => a
  | .ld8Hram0 a => a
  | .ld8Hram1 a => a
  | .ld8Hram2 a => a
  | .ld8Hram3 a => a
  | .ld8Hram4 a => a
  | .ld8Hram5 a => a
  | .ld8Hram6 a => a
  | .ld8Ie a => a
  | .st8MbcS0 a _ => a
  | .st8MbcS1 a _ => a
  | .st8MbcS2 a _ => a
  | .st8MbcS3 a _ => a
  | .st8Vram a _ => a
  | .st8Extram a _ => a
  | .st8Wram0 a _ => a
  | .st8WramN a _ => a
  | .st8Echo0 a _ => a
  | .st8Echo1 a _ => a
  | .st8Echo2 a _ => a
  | .st8Echo3 a _ => a
  | .st8Oam0 a _ => a
  | .st8Oam1 a _ => a
  | .st8Unusable0 a _ => a
  | .st8Unusable1 a _ => a
  | .st8Io a _ => a
  | .st8Hram0 a _ => a
  | .st8Hram1 a _ => a
  | .st8Hram2 a _ => a
  | .st8Hram3 a _ => a
  | .st8Hram4 a _ => a
  | .st8Hram5 a _ => a
  | .st8Hram6 a _ => a
  | .st8Ie a _ => a
  | .ld16 a => a
  | .st16 a _ => a
  | .init a => a
  | .reset a => a
  | .deinit a => a

end Sys2Proof
end

