-- ==== Sys2Proof/WellFormed.lean ====
section
/-! DEFINITION. Well-formed instructions: each row's operand address lies in the range its match and mask select (20_memory.md R62, 30_encoding.md R94 and R96; the sub-ranges are those of 95_test_vectors.md section 2.1). Every store value is admitted. -/

namespace Sys2Proof

/-- `lo <= a <= hi`, both ends inclusive, as the address map of R62 is written. -/
def inRange (lo hi : Nat) (a : Addr) : Bool :=
  decide (lo ≤ a.toNat) && decide (a.toNat ≤ hi)

/-- The address of an instruction lies in its row's range. -/
def Instr.wf : Instr → Bool
  | .ld8Rom0 a => inRange 0x0000 0x3FFF a
  | .ld8RomN a => inRange 0x4000 0x7FFF a
  | .ld8Vram a => inRange 0x8000 0x9FFF a
  | .ld8Extram a => inRange 0xA000 0xBFFF a
  | .ld8Wram0 a => inRange 0xC000 0xCFFF a
  | .ld8WramN a => inRange 0xD000 0xDFFF a
  | .ld8Echo0 a => inRange 0xE000 0xEFFF a
  | .ld8Echo1 a => inRange 0xF000 0xF7FF a
  | .ld8Echo2 a => inRange 0xF800 0xFBFF a
  | .ld8Echo3 a => inRange 0xFC00 0xFDFF a
  | .ld8Oam0 a => inRange 0xFE00 0xFE7F a
  | .ld8Oam1 a => inRange 0xFE80 0xFE9F a
  | .ld8Unusable0 a => inRange 0xFEA0 0xFEBF a
  | .ld8Unusable1 a => inRange 0xFEC0 0xFEFF a
  | .ld8Io a => inRange 0xFF00 0xFF7F a
  | .ld8Hram0 a => inRange 0xFF80 0xFFBF a
  | .ld8Hram1 a => inRange 0xFFC0 0xFFDF a
  | .ld8Hram2 a => inRange 0xFFE0 0xFFEF a
  | .ld8Hram3 a => inRange 0xFFF0 0xFFF7 a
  | .ld8Hram4 a => inRange 0xFFF8 0xFFFB a
  | .ld8Hram5 a => inRange 0xFFFC 0xFFFD a
  | .ld8Hram6 a => inRange 0xFFFE 0xFFFE a
  | .ld8Ie a => inRange 0xFFFF 0xFFFF a
  | .st8MbcS0 a _ => inRange 0x0000 0x1FFF a
  | .st8MbcS1 a _ => inRange 0x2000 0x3FFF a
  | .st8MbcS2 a _ => inRange 0x4000 0x5FFF a
  | .st8MbcS3 a _ => inRange 0x6000 0x7FFF a
  | .st8Vram a _ => inRange 0x8000 0x9FFF a
  | .st8Extram a _ => inRange 0xA000 0xBFFF a
  | .st8Wram0 a _ => inRange 0xC000 0xCFFF a
  | .st8WramN a _ => inRange 0xD000 0xDFFF a
  | .st8Echo0 a _ => inRange 0xE000 0xEFFF a
  | .st8Echo1 a _ => inRange 0xF000 0xF7FF a
  | .st8Echo2 a _ => inRange 0xF800 0xFBFF a
  | .st8Echo3 a _ => inRange 0xFC00 0xFDFF a
  | .st8Oam0 a _ => inRange 0xFE00 0xFE7F a
  | .st8Oam1 a _ => inRange 0xFE80 0xFE9F a
  | .st8Unusable0 a _ => inRange 0xFEA0 0xFEBF a
  | .st8Unusable1 a _ => inRange 0xFEC0 0xFEFF a
  | .st8Io a _ => inRange 0xFF00 0xFF7F a
  | .st8Hram0 a _ => inRange 0xFF80 0xFFBF a
  | .st8Hram1 a _ => inRange 0xFFC0 0xFFDF a
  | .st8Hram2 a _ => inRange 0xFFE0 0xFFEF a
  | .st8Hram3 a _ => inRange 0xFFF0 0xFFF7 a
  | .st8Hram4 a _ => inRange 0xFFF8 0xFFFB a
  | .st8Hram5 a _ => inRange 0xFFFC 0xFFFD a
  | .st8Hram6 a _ => inRange 0xFFFE 0xFFFE a
  | .st8Ie a _ => inRange 0xFFFF 0xFFFF a
  | .ld16 _ => true
  | .st16 _ _ => true
  | .init _ => true
  | .reset _ => true
  | .deinit _ => true

/-- `Instr.wf` as a proposition, for statements. -/
abbrev WellFormed (i : Instr) : Prop := i.wf = true

end Sys2Proof
end

