-- ==== Sys2Proof/Decode.lean ====
section
/-! DEFINITION. The decoder of the 35-bit request word, from the match and mask columns of spec/opcode_table.json (30_encoding.md R90 to R94), and after it the encoder. -/

namespace Sys2Proof

/-- `req_op`, bits 34:32 of the request word (R91). -/
def reqOp (w : RequestWord) : BitVec 3 := w.extractLsb' 32 3

/-- `req_addr`, bits 31:16 of the request word (R91). -/
def reqAddr (w : RequestWord) : Addr := w.extractLsb' 16 16

/-- `req_wdata`, bits 15:0 of the request word (R91). -/
def reqWdata (w : RequestWord) : Half := w.extractLsb' 0 16

/-- The store byte of ST8, `wdata[7:0]`; `wdata[15:8]` has no effect (R92). -/
def storeByte (d : Half) : Byte := d.extractLsb' 0 8

/-- Why a word is no request (R93). -/
inductive Rejection where
  /-- `op = 111` spells no operation. -/
  | reservedOp
deriving DecidableEq, Repr

/-- One row of the opcode table: the word is the row's when `(word & mask) == match` (R91). -/
structure Row where
  pattern : RequestWord
  mask    : RequestWord
  build   : Addr → Half → Instr

/-- Does the word select the row? -/
def Row.selects (r : Row) (w : RequestWord) : Bool := w &&& r.mask == r.pattern

/-- LD8 rows of the cartridge, video and external RAM regions. -/
def ld8RomRows : List Row :=
  [ ⟨0x000000000#35, 0x7C0000000#35, fun a _ => .ld8Rom0 a⟩
  , ⟨0x040000000#35, 0x7C0000000#35, fun a _ => .ld8RomN a⟩
  , ⟨0x080000000#35, 0x7E0000000#35, fun a _ => .ld8Vram a⟩
  , ⟨0x0A0000000#35, 0x7E0000000#35, fun a _ => .ld8Extram a⟩ ]

/-- LD8 rows of working RAM and its echo. -/
def ld8WramRows : List Row :=
  [ ⟨0x0C0000000#35, 0x7F0000000#35, fun a _ => .ld8Wram0 a⟩
  , ⟨0x0D0000000#35, 0x7F0000000#35, fun a _ => .ld8WramN a⟩
  , ⟨0x0E0000000#35, 0x7F0000000#35, fun a _ => .ld8Echo0 a⟩
  , ⟨0x0F0000000#35, 0x7F8000000#35, fun a _ => .ld8Echo1 a⟩
  , ⟨0x0F8000000#35, 0x7FC000000#35, fun a _ => .ld8Echo2 a⟩
  , ⟨0x0FC000000#35, 0x7FE000000#35, fun a _ => .ld8Echo3 a⟩ ]

/-- LD8 rows of OAM, the unusable space and I/O. -/
def ld8HighRows : List Row :=
  [ ⟨0x0FE000000#35, 0x7FF800000#35, fun a _ => .ld8Oam0 a⟩
  , ⟨0x0FE800000#35, 0x7FFE00000#35, fun a _ => .ld8Oam1 a⟩
  , ⟨0x0FEA00000#35, 0x7FFE00000#35, fun a _ => .ld8Unusable0 a⟩
  , ⟨0x0FEC00000#35, 0x7FFC00000#35, fun a _ => .ld8Unusable1 a⟩
  , ⟨0x0FF000000#35, 0x7FF800000#35, fun a _ => .ld8Io a⟩ ]

/-- LD8 rows of high RAM and interrupt enable. -/
def ld8HramRows : List Row :=
  [ ⟨0x0FF800000#35, 0x7FFC00000#35, fun a _ => .ld8Hram0 a⟩
  , ⟨0x0FFC00000#35, 0x7FFE00000#35, fun a _ => .ld8Hram1 a⟩
  , ⟨0x0FFE00000#35, 0x7FFF00000#35, fun a _ => .ld8Hram2 a⟩
  , ⟨0x0FFF00000#35, 0x7FFF80000#35, fun a _ => .ld8Hram3 a⟩
  , ⟨0x0FFF80000#35, 0x7FFFC0000#35, fun a _ => .ld8Hram4 a⟩
  , ⟨0x0FFFC0000#35, 0x7FFFE0000#35, fun a _ => .ld8Hram5 a⟩
  , ⟨0x0FFFE0000#35, 0x7FFFF0000#35, fun a _ => .ld8Hram6 a⟩
  , ⟨0x0FFFF0000#35, 0x7FFFF0000#35, fun a _ => .ld8Ie a⟩ ]

/-- ST8 rows of the controller slots, video and external RAM. -/
def st8LowRows : List Row :=
  [ ⟨0x100000000#35, 0x7E0000000#35, fun a d => .st8MbcS0 a (storeByte d)⟩
  , ⟨0x120000000#35, 0x7E0000000#35, fun a d => .st8MbcS1 a (storeByte d)⟩
  , ⟨0x140000000#35, 0x7E0000000#35, fun a d => .st8MbcS2 a (storeByte d)⟩
  , ⟨0x160000000#35, 0x7E0000000#35, fun a d => .st8MbcS3 a (storeByte d)⟩
  , ⟨0x180000000#35, 0x7E0000000#35, fun a d => .st8Vram a (storeByte d)⟩
  , ⟨0x1A0000000#35, 0x7E0000000#35, fun a d => .st8Extram a (storeByte d)⟩ ]

/-- ST8 rows of working RAM and its echo. -/
def st8WramRows : List Row :=
  [ ⟨0x1C0000000#35, 0x7F0000000#35, fun a d => .st8Wram0 a (storeByte d)⟩
  , ⟨0x1D0000000#35, 0x7F0000000#35, fun a d => .st8WramN a (storeByte d)⟩
  , ⟨0x1E0000000#35, 0x7F0000000#35, fun a d => .st8Echo0 a (storeByte d)⟩
  , ⟨0x1F0000000#35, 0x7F8000000#35, fun a d => .st8Echo1 a (storeByte d)⟩
  , ⟨0x1F8000000#35, 0x7FC000000#35, fun a d => .st8Echo2 a (storeByte d)⟩
  , ⟨0x1FC000000#35, 0x7FE000000#35, fun a d => .st8Echo3 a (storeByte d)⟩ ]

/-- ST8 rows of OAM, the unusable space and I/O. -/
def st8HighRows : List Row :=
  [ ⟨0x1FE000000#35, 0x7FF800000#35, fun a d => .st8Oam0 a (storeByte d)⟩
  , ⟨0x1FE800000#35, 0x7FFE00000#35, fun a d => .st8Oam1 a (storeByte d)⟩
  , ⟨0x1FEA00000#35, 0x7FFE00000#35, fun a d => .st8Unusable0 a (storeByte d)⟩
  , ⟨0x1FEC00000#35, 0x7FFC00000#35, fun a d => .st8Unusable1 a (storeByte d)⟩
  , ⟨0x1FF000000#35, 0x7FF800000#35, fun a d => .st8Io a (storeByte d)⟩ ]

/-- ST8 rows of high RAM and interrupt enable. -/
def st8HramRows : List Row :=
  [ ⟨0x1FF800000#35, 0x7FFC00000#35, fun a d => .st8Hram0 a (storeByte d)⟩
  , ⟨0x1FFC00000#35, 0x7FFE00000#35, fun a d => .st8Hram1 a (storeByte d)⟩
  , ⟨0x1FFE00000#35, 0x7FFF00000#35, fun a d => .st8Hram2 a (storeByte d)⟩
  , ⟨0x1FFF00000#35, 0x7FFF80000#35, fun a d => .st8Hram3 a (storeByte d)⟩
  , ⟨0x1FFF80000#35, 0x7FFFC0000#35, fun a d => .st8Hram4 a (storeByte d)⟩
  , ⟨0x1FFFC0000#35, 0x7FFFE0000#35, fun a d => .st8Hram5 a (storeByte d)⟩
  , ⟨0x1FFFE0000#35, 0x7FFFF0000#35, fun a d => .st8Hram6 a (storeByte d)⟩
  , ⟨0x1FFFF0000#35, 0x7FFFF0000#35, fun a d => .st8Ie a (storeByte d)⟩ ]

/-- The 16-bit placeholders and the lifecycle operations, one row each whatever the address (R102). -/
def otherRows : List Row :=
  [ ⟨0x200000000#35, 0x700000000#35, fun a _ => .ld16 a⟩
  , ⟨0x300000000#35, 0x700000000#35, fun a d => .st16 a d⟩
  , ⟨0x400000000#35, 0x700000000#35, fun a _ => .init a⟩
  , ⟨0x500000000#35, 0x700000000#35, fun a _ => .reset a⟩
  , ⟨0x600000000#35, 0x700000000#35, fun a _ => .deinit a⟩ ]

/-- The opcode table, in its own order: 23 LD8 rows, 25 ST8 rows and 5 others (R102). -/
def opcodeRows : List Row :=
  ld8RomRows ++ ld8WramRows ++ ld8HighRows ++ ld8HramRows
    ++ st8LowRows ++ st8WramRows ++ st8HighRows ++ st8HramRows ++ otherRows

/-- Decode a request word: the instruction of the row that the word selects. A word that selects no
row is rejected by name; that is a word with `op = 111` (R93). -/
def decode (w : RequestWord) : Except Rejection Instr :=
  match opcodeRows.find? (fun r => r.selects w) with
  | some r => .ok (r.build (reqAddr w) (reqWdata w))
  | none => .error .reservedOp

/-- The request word `(op << 32) | (addr << 16) | wdata` (R91). -/
def requestWord (op : BitVec 3) (a : Addr) (d : Half) : RequestWord := op ++ a ++ d

/-- Encode an instruction, with 0 in every field its operation ignores (R90, R91, R92). -/
def encode : Instr → RequestWord
  | .ld8Rom0 a => requestWord 0b000#3 a 0#16
  | .ld8RomN a => requestWord 0b000#3 a 0#16
  | .ld8Vram a => requestWord 0b000#3 a 0#16
  | .ld8Extram a => requestWord 0b000#3 a 0#16
  | .ld8Wram0 a => requestWord 0b000#3 a 0#16
  | .ld8WramN a => requestWord 0b000#3 a 0#16
  | .ld8Echo0 a => requestWord 0b000#3 a 0#16
  | .ld8Echo1 a => requestWord 0b000#3 a 0#16
  | .ld8Echo2 a => requestWord 0b000#3 a 0#16
  | .ld8Echo3 a => requestWord 0b000#3 a 0#16
  | .ld8Oam0 a => requestWord 0b000#3 a 0#16
  | .ld8Oam1 a => requestWord 0b000#3 a 0#16
  | .ld8Unusable0 a => requestWord 0b000#3 a 0#16
  | .ld8Unusable1 a => requestWord 0b000#3 a 0#16
  | .ld8Io a => requestWord 0b000#3 a 0#16
  | .ld8Hram0 a => requestWord 0b000#3 a 0#16
  | .ld8Hram1 a => requestWord 0b000#3 a 0#16
  | .ld8Hram2 a => requestWord 0b000#3 a 0#16
  | .ld8Hram3 a => requestWord 0b000#3 a 0#16
  | .ld8Hram4 a => requestWord 0b000#3 a 0#16
  | .ld8Hram5 a => requestWord 0b000#3 a 0#16
  | .ld8Hram6 a => requestWord 0b000#3 a 0#16
  | .ld8Ie a => requestWord 0b000#3 a 0#16
  | .st8MbcS0 a v => requestWord 0b001#3 a (v.setWidth 16)
  | .st8MbcS1 a v => requestWord 0b001#3 a (v.setWidth 16)
  | .st8MbcS2 a v => requestWord 0b001#3 a (v.setWidth 16)
  | .st8MbcS3 a v => requestWord 0b001#3 a (v.setWidth 16)
  | .st8Vram a v => requestWord 0b001#3 a (v.setWidth 16)
  | .st8Extram a v => requestWord 0b001#3 a (v.setWidth 16)
  | .st8Wram0 a v => requestWord 0b001#3 a (v.setWidth 16)
  | .st8WramN a v => requestWord 0b001#3 a (v.setWidth 16)
  | .st8Echo0 a v => requestWord 0b001#3 a (v.setWidth 16)
  | .st8Echo1 a v => requestWord 0b001#3 a (v.setWidth 16)
  | .st8Echo2 a v => requestWord 0b001#3 a (v.setWidth 16)
  | .st8Echo3 a v => requestWord 0b001#3 a (v.setWidth 16)
  | .st8Oam0 a v => requestWord 0b001#3 a (v.setWidth 16)
  | .st8Oam1 a v => requestWord 0b001#3 a (v.setWidth 16)
  | .st8Unusable0 a v => requestWord 0b001#3 a (v.setWidth 16)
  | .st8Unusable1 a v => requestWord 0b001#3 a (v.setWidth 16)
  | .st8Io a v => requestWord 0b001#3 a (v.setWidth 16)
  | .st8Hram0 a v => requestWord 0b001#3 a (v.setWidth 16)
  | .st8Hram1 a v => requestWord 0b001#3 a (v.setWidth 16)
  | .st8Hram2 a v => requestWord 0b001#3 a (v.setWidth 16)
  | .st8Hram3 a v => requestWord 0b001#3 a (v.setWidth 16)
  | .st8Hram4 a v => requestWord 0b001#3 a (v.setWidth 16)
  | .st8Hram5 a v => requestWord 0b001#3 a (v.setWidth 16)
  | .st8Hram6 a v => requestWord 0b001#3 a (v.setWidth 16)
  | .st8Ie a v => requestWord 0b001#3 a (v.setWidth 16)
  | .ld16 a => requestWord 0b010#3 a 0#16
  | .st16 a d => requestWord 0b011#3 a d
  | .init a => requestWord 0b100#3 a 0#16
  | .reset a => requestWord 0b101#3 a 0#16
  | .deinit a => requestWord 0b110#3 a 0#16

/-- The request word a number stands for, numbered as the opcode table numbers bits. A number of more
than 35 bits is no request; it stands for a word of the reserved op, which nothing admits. See log 15. -/
def requestOfNat (w : Nat) : RequestWord :=
  if w < 2 ^ 35 then BitVec.ofNat 35 w else requestWord 0b111#3 0#16 0#16

/-- The instruction the decoder reads from a table-numbered word. Every row is one 35-bit word, so the
row's length `nbits` adds nothing to it. -/
def decodeTableWord (_nbits w : Nat) : Option Instr :=
  match decode (requestOfNat w) with
  | .ok i => some i
  | .error _ => none

end Sys2Proof
end

