-- ==== Sys2Proof/Machine/State.lean ====
section
/-! DEFINITION. The state of the block (10_state.md): the bank-state register file, the block-owned memories, the session status, the signals of the interface ports, and the reasons a step can stop. All of it is plain data. -/

namespace Sys2Proof.Machine

/-- Why the machine stops. The block has no trap (R223): each of these is an internal check of the
model on an access that no session makes (93_implementation_defined.md U17; log 11). All are safe. -/
inductive Fault where
  /-- A ROM read at an offset of ROM_SIZE or more, or with no image. Raised by LD8 of ROM0 and ROMN. Safe. -/
  | romOffsetOutOfImage
  /-- A working-RAM access while no working RAM is allocated. Raised by LD8 and ST8 of WRAM0, WRAMN and ECHO. Safe. -/
  | wramNotAllocated
  /-- A working-RAM offset of 0x2000 or more. Raised by LD8 and ST8 of WRAM0, WRAMN and ECHO. Safe. -/
  | wramOffsetOutOfRange
  /-- A high-RAM index of 127 or more. Raised by LD8 and ST8 of HRAM on an ill-formed address only. Safe. -/
  | hramIndexOutOfRange
deriving DecidableEq, Repr

/-- Why the model has no step: `refuse(reason)` of R10. Each errs toward unprovable, so all are safe. -/
inductive Refusal where
  /-- An instruction without a meaning yet; raised by exec's arm alone. Safe. -/
  | notModelled (mnemonic : String)
  /-- `refuse(ReservedOp)`: the request's op is 111 (R93, R120). Raised by step. Safe. -/
  | reservedOp
  /-- `refuse(NoSession)`: a load or store while `active = 0` (R30, R120). Raised by LD8, ST8, LD16, ST16. Safe. -/
  | noSession
  /-- `refuse(StrictUnimpl)`: LD16 or ST16 while STRICT_UNIMPL is on (R120). Safe. -/
  | strictUnimpl
  /-- `refuse(RomTooSmall)`: RESET with no image, or one under 0x8000 bytes (R252). Safe. -/
  | romTooSmall
  /-- The loader changes the image between a RESET and the next DEINIT (R261, U16; log 12). Raised by step. Safe. -/
  | imageLocked
deriving DecidableEq, Repr

/-- Bytes by offset: offsets strictly rising, no entry equal to what an unlisted offset reads as
(`Memory.wf`). -/
abbrev Memory := List Host.Cell

/-- The cartridge image (R26): ROM_SIZE and its bytes; an unlisted offset below ROM_SIZE holds 0x00 (log 2). -/
structure Rom where
  size  : Nat
  cells : Memory
deriving DecidableEq, Repr

/-- What an unlisted offset of a block-owned memory reads as. -/
inductive Fill where
  /-- 0x00: high RAM after a successful RESET (R28). -/
  | zero
  /-- The free byte of a draw: contents the spec leaves unspecified (R27, U1 to U4; log 7, 8). -/
  | free (draw : Nat)
deriving DecidableEq, Repr

/-- A block-owned memory: the bytes written since its contents were last set, and what the rest reads as. -/
structure Block where
  cells : Memory
  fill  : Fill
deriving DecidableEq, Repr

/-- The input signals sampled in a request's cycle beside the request itself (R43, R44, R48). The
two bytes are the collaborators' answers, oracle inputs with no assumed law (R10, D23; log 5);
`allocOk` is the outcome of the allocation, a free draw at each RESET (D16; log 6). -/
structure Pins where
  vramRdata : Byte
  ioRdata   : Byte
  allocOk   : Bool
deriving DecidableEq, Repr

/-- One clock cycle at the inputs: `req_valid`, the request word `{req_op, req_addr, req_wdata}`
(R40, R91) and the other input signals. A cycle with `reqValid = false` is IDLE (R101). -/
structure Cycle where
  reqValid : Bool
  word     : RequestWord
  pins     : Pins
deriving DecidableEq, Repr

/-- What the outside does next: a clock cycle, or the loader supplying an image (R48, R258; log 3, 12). -/
inductive Input where
  | cycle (c : Cycle)
  | loadImage (r : Rom)
deriving DecidableEq, Repr

/-- A call the block makes on a collaborator (R10, R43, R44). -/
inductive PortCall where
  | vramRead (offset : BitVec 13)
  | vramWrite (offset : BitVec 13) (v : Byte)
  | vramNotify (offset : BitVec 13)
  | ioRead (id : Byte)
  | ioWrite (id : Byte) (v : Byte)
deriving DecidableEq, Repr

/-- `bsr_code` (R45). -/
inductive BsrCode where
  | none
  | applied
  | rejected
  | noop
deriving DecidableEq, Repr

/-- `diag_code` (R220); the codes 0x9 to 0xF are never produced. -/
inductive DiagCode where
  | none
  | bankOor
  | unknownCartType
  | unimplExtram
  | unimplOam
  | unimplMbc
  | unimplRamen
  | unimplWide
  | resetAllocFail
deriving DecidableEq, Repr

/-- `reset_status` (R47). -/
inductive ResetStatus where
  | none
  | ok
  | fail
deriving DecidableEq, Repr

/-- The output signals of the ports (R41 to R47), as driven in one request. -/
structure Outputs where
  /-- `rsp_rdata[15:0]` (R41). -/
  rspRdata : Half
  /-- `region_id[3:0]` (R42). -/
  regionId : BitVec 4
  /-- `region_sel[11:0]` (R42). -/
  regionSel : BitVec 12
  /-- `vram_off[12:0]` (R43). -/
  vramOff : BitVec 13
  vramRe : Bool
  vramWe : Bool
  vramWdata : Byte
  vramNotify : Bool
  /-- `io_id[7:0]` (R44). -/
  ioId : Byte
  ioRe : Bool
  ioWe : Bool
  ioWdata : Byte
  /-- `bsr_code[1:0]` and `bsr_bank[6:0]` (R45). -/
  bsrCode : BsrCode
  bsrBank : BitVec 7
  /-- `diag_valid`, `diag_code[3:0]` and `diag_info[15:0]` (R46). -/
  diagValid : Bool
  diagCode : DiagCode
  diagInfo : BitVec 16
  /-- `reset_status[1:0]` (R47). -/
  resetStatus : ResetStatus
  /-- The request's collaborator calls in the order they are delivered (R43: the write before the notify). -/
  calls : List PortCall
deriving DecidableEq, Repr

/-- The state of the block and of its ports. -/
structure State where
  /-- The parameters (R7); no step writes them (log 13). -/
  config : Config
  /-- R20. -/
  controllerType : Controller
  /-- R21. -/
  currentBank : BitVec 7
  /-- R22: byte offset of the switchable 16 KiB window in the image. -/
  romBankBase : BitVec 21
  /-- R23: byte offset of bank N in working RAM. -/
  workingRamBankBase : BitVec 13
  /-- R30. -/
  active : Bool
  /-- R26, R48: the image and ROM_SIZE, `none` when not supplied or released. -/
  rom : Option Rom
  /-- The model's own: a RESET has sampled the image and no DEINIT has released it since (R48, R261; log 12). -/
  romLocked : Bool
  /-- R27: working RAM, `none` when not allocated. -/
  wram : Option Block
  /-- R28: high RAM. -/
  hram : Block
  /-- The input signals of the cycle being executed (R43, R44, R48). -/
  pins : Pins
  /-- The cycles to come (R40; log 3). -/
  inputs : List Input
  /-- What the block drove in the most recent request (R41 to R47), its diagnostic only until that
  request's cycle is over (R225; log 4). -/
  out : Outputs
  /-- The model's own: how many draws of unspecified values have been made (log 7, 8). -/
  draws : Nat
deriving DecidableEq, Repr

/-- The three outcomes of one request. -/
abbrev Result := Host.Outcome State Fault Refusal

/-- The machine right after reset: the column "after successful RESET" of 10_state.md section 5, with
the least admitted image (0x8000 bytes, all 0x00), the default parameters, and nothing presented at
the request port. See log 1, 2, 5, 6, 7 and 13 for what the spec does not fix. -/
def State.reset : State where
  config := { wramBankNOffset := 0x1000#13, ieRegId := 0xFF#8, strictUnimpl := false }
  controllerType := .typeNone
  currentBank := 1#7
  romBankBase := 0x4000#21
  workingRamBankBase := 0x1000#13
  active := true
  rom := some { size := 0x8000, cells := [] }
  romLocked := true
  wram := some { cells := [], fill := .free 1 }
  hram := { cells := [], fill := .zero }
  pins := { vramRdata := 0#8, ioRdata := 0#8, allocOk := true }
  inputs := []
  out :=
    { rspRdata := 0#16, regionId := 0#4, regionSel := 1#12
      vramOff := 0#13, vramRe := false, vramWe := false, vramWdata := 0#8, vramNotify := false
      ioId := 0#8, ioRe := false, ioWe := false, ioWdata := 0#8
      bsrCode := .none, bsrBank := 0#7
      diagValid := false, diagCode := .none, diagInfo := 0#16
      resetStatus := .ok, calls := [] }
  draws := 2

/-- The machine at power-up, before the first INIT: `active = 0` and everything else unspecified
(R257). The registers and high RAM are the free values of draw 0; no working RAM is allocated and no
image is supplied. See log 9. -/
def State.powerUp (c : Config) (p : Pins) (o : Outputs) (inputs : List Input) : State where
  config := c
  controllerType := Config.freeController 0
  currentBank := Config.freeBank 0
  romBankBase := Config.freeRomBase 0
  workingRamBankBase := Config.freeWramBase 0
  active := false
  rom := none
  romLocked := false
  wram := none
  hram := { cells := [], fill := .free 0 }
  pins := p
  inputs := inputs
  out := o
  draws := 1

end Sys2Proof.Machine
end

