-- ==== Sys2Proof/Machine/Operands.lean ====
section
/-! DEFINITION. What the decoder takes from a request: the region of an address, the index into the region's backing store, the controller slot, the requested bank number, and the controller variant of a header byte (30_encoding.md R94 to R98, 20_memory.md R62 and R65, 41_bank_controller.md R180). -/

namespace Sys2Proof.Machine

/-! The fixed parameters of R6. -/

/-- ROM_BANK_SIZE (R6). -/
def romBankSize : Nat := 0x4000
/-- The least ROM_SIZE a RESET admits (R7, R252). -/
def minRomSize : Nat := 0x8000
/-- WRAM_SIZE (R6). -/
def wramSize : Nat := 0x2000
/-- HRAM_SIZE (R6). -/
def hramSize : Nat := 127
/-- CART_TYPE_OFFSET (R6). -/
def cartTypeOffset : Nat := 0x147

/-- The twelve regions of the address map (R62). -/
inductive Region where
  | rom0
  | romN
  | vram
  | extram
  | wram0
  | wramN
  | echo
  | oam
  | unusable
  | io
  | hram
  | ie
deriving DecidableEq, Repr

/-- `region_id[3:0]` (R62); the ids 12 to 15 are never produced (R42). -/
def Region.id : Region → BitVec 4
  | .rom0 => 0#4
  | .romN => 1#4
  | .vram => 2#4
  | .extram => 3#4
  | .wram0 => 4#4
  | .wramN => 5#4
  | .echo => 6#4
  | .oam => 7#4
  | .unusable => 8#4
  | .io => 9#4
  | .hram => 10#4
  | .ie => 11#4

/-- The region of an address: the decode by the top bits of R94, in R94's order. -/
def regionOf (a : Addr) : Region :=
  if a.extractLsb' 14 2 = 0b00#2 then .rom0
  else if a.extractLsb' 14 2 = 0b01#2 then .romN
  else if a.extractLsb' 13 3 = 0b100#3 then .vram
  else if a.extractLsb' 13 3 = 0b101#3 then .extram
  else if a.extractLsb' 12 4 = 0xC#4 then .wram0
  else if a.extractLsb' 12 4 = 0xD#4 then .wramN
  else if a.extractLsb' 12 4 = 0xE#4 then .echo
  else if a.extractLsb' 12 4 = 0xF#4 ∧ a.toNat ≤ 0xFDFF then .echo
  else if 0xFE00 ≤ a.toNat ∧ a.toNat ≤ 0xFE9F then .oam
  else if 0xFEA0 ≤ a.toNat ∧ a.toNat ≤ 0xFEFF then .unusable
  else if 0xFF00 ≤ a.toNat ∧ a.toNat ≤ 0xFF7F then .io
  else if 0xFF80 ≤ a.toNat ∧ a.toNat ≤ 0xFFFE then .hram
  else .ie

/-- `region_id` of an address (R42, R94). -/
def regionId (a : Addr) : BitVec 4 := (regionOf a).id

/-- `region_sel`, with bit `i` set exactly when `region_id = i` (R42). -/
def regionSel (a : Addr) : BitVec 12 := 1#12 <<< (regionId a).toNat

/-! Index fields (R95) and translation (R65). -/

/-- `a & 0x3FFF` (R95). -/
def romIndex (a : Addr) : Nat := (a &&& 0x3FFF#16).toNat

/-- `a & 0x0FFF` (R95). -/
def wramIndex (a : Addr) : Nat := (a &&& 0x0FFF#16).toNat

/-- `a & 0x7F` (R95). -/
def hramIndex (a : Addr) : Nat := (a &&& 0x7F#16).toNat

/-- `a[12:0]`, the offset on the VRAM port (R95). -/
def vramOffset (a : Addr) : BitVec 13 := a.extractLsb' 0 13

/-- `a[7:0]`, the register id on the I/O port (R95). -/
def ioRegister (a : Addr) : Byte := a.extractLsb' 0 8

/-- `rom_off` in ROM0 (R65). -/
def rom0Offset (a : Addr) : Nat := romIndex a

/-- `rom_off` in ROMN: the bank window (R65). The sum is exact (R8). -/
def romNOffset (s : State) (a : Addr) : Nat := s.romBankBase.toNat + romIndex a

/-- `wram_off` in WRAM0 (R65). -/
def wram0Offset (a : Addr) : Nat := wramIndex a

/-- `wram_off` in WRAMN and ECHO (R65). The sum is exact (R8). -/
def wramNOffset (s : State) (a : Addr) : Nat := s.workingRamBankBase.toNat + wramIndex a

/-- The controller slot `a >> 13 = a[15:13]` (R96). -/
def slotOf (a : Addr) : BitVec 3 := a.extractLsb' 13 3

/-! Bank-number assembly (R97). Bit `v[7]` is never used. -/

/-- Type1: the low five bits, 0 forced to 1, with bits 6:5 of the previous bank kept (R97). -/
def bankT1 (v : Byte) (cb : BitVec 7) : BitVec 7 :=
  let field : BitVec 7 := (v.extractLsb' 0 5).setWidth 7
  let lo5 : BitVec 7 := if field = 0#7 then 1#7 else field
  lo5 ||| (cb &&& 0x60#7)

/-- Type3: the low seven bits, 0 forced to 1 (R97). -/
def bankT3 (v : Byte) : BitVec 7 :=
  let b : BitVec 7 := v.extractLsb' 0 7
  if b = 0#7 then 1#7 else b

/-- Type5: the low seven bits as they are (R97). -/
def bankT5 (v : Byte) : BitVec 7 := v.extractLsb' 0 7

/-- The rows of the header table with a variant of their own; every other type byte is `none` (R180). -/
def headerLookup (t : Byte) : Option Controller :=
  if [0x00#8, 0x08#8, 0x09#8].contains t then some .typeNone
  else if [0x01#8, 0x02#8, 0x03#8].contains t then some .type1
  else if [0x05#8, 0x06#8].contains t then some .type2
  else if [0x0F#8, 0x10#8, 0x11#8, 0x12#8, 0x13#8].contains t then some .type3
  else if [0x15#8, 0x16#8, 0x17#8].contains t then some .type4
  else if [0x19#8, 0x1A#8, 0x1B#8, 0x1C#8, 0x1D#8, 0x1E#8].contains t then some .type5
  else none

/-- The variant of a type byte, with the Type5 fallback (R180, R181). -/
def variantOf (t : Byte) : Controller := (headerLookup t).getD .type5

/-- Is the type byte a fallback value, which raises UNKNOWN_CART_TYPE (R180)? -/
def isFallback (t : Byte) : Bool := (headerLookup t).isNone

/-- The tag held in the 3-bit register `controllerType` (R20). -/
def controllerTag : Controller → BitVec 3
  | .typeNone => 0#3
  | .type1 => 1#3
  | .type2 => 2#3
  | .type3 => 3#3
  | .type4 => 4#3
  | .type5 => 5#3

end Sys2Proof.Machine
end

