-- ==== Sys2Proof/Machine/Flags.lean ====
section
/-! DEFINITION. The block has no flags and no condition codes (10_state.md R25). What it reports of a request stands on its output signals; this file holds their idle values, their encodings and how a rule drives them (10_state.md section 4, 60_exceptions.md R220). -/

namespace Sys2Proof.Machine

/-- The bits of `bsr_code[1:0]` (R45). -/
def bsrBits : BsrCode → BitVec 2
  | .none => 0b00#2
  | .applied => 0b01#2
  | .rejected => 0b10#2
  | .noop => 0b11#2

/-- The bits of `diag_code[3:0]` (R220). -/
def diagBits : DiagCode → BitVec 4
  | .none => 0x0#4
  | .bankOor => 0x1#4
  | .unknownCartType => 0x2#4
  | .unimplExtram => 0x3#4
  | .unimplOam => 0x4#4
  | .unimplMbc => 0x5#4
  | .unimplRamen => 0x6#4
  | .unimplWide => 0x7#4
  | .resetAllocFail => 0x8#4

/-- The bits of `reset_status[1:0]` (R47). -/
def resetStatusBits : ResetStatus → BitVec 2
  | .none => 0b00#2
  | .ok => 0b01#2
  | .fail => 0b10#2

/-- The outputs of a request to address `a` before its rule drives any: the region select, which is
decoded from the address in every operation (R42), and the idle value of every other output. -/
def idleOut (a : Addr) : Outputs :=
  { rspRdata := 0#16, regionId := regionId a, regionSel := regionSel a
    vramOff := 0#13, vramRe := false, vramWe := false, vramWdata := 0#8, vramNotify := false
    ioId := 0#8, ioRe := false, ioWe := false, ioWdata := 0#8
    bsrCode := .none, bsrBank := 0#7
    diagValid := false, diagCode := .none, diagInfo := 0#16
    resetStatus := .none, calls := [] }

/-- `raise Diag(code, info)` (R10, R46). -/
def raise (code : DiagCode) (info : BitVec 16) (o : Outputs) : Outputs :=
  { o with diagValid := true, diagCode := code, diagInfo := info }

/-- The outputs once the cycle of their request is over: a diagnostic is visible only in the cycle of the
request that raised it (R225); the other outputs do not change (R101). See log 4. -/
def dropDiag (o : Outputs) : Outputs :=
  { o with diagValid := false, diagCode := .none, diagInfo := 0#16 }

/-- `result(code, bank)` (R10, R45). -/
def bsrResult (code : BsrCode) (bank : BitVec 7) (o : Outputs) : Outputs :=
  { o with bsrCode := code, bsrBank := bank }

/-- LD8: `rsp_rdata <- zext_16(byte)` (R41). -/
def loadOut (a : Addr) (b : Byte) : Outputs :=
  { idleOut a with rspRdata := b.setWidth 16 }

/-- LD8 through the VRAM port: `VramRead` of the offset, answered by `b` (R124). A load never notifies. -/
def vramReadOut (a : Addr) (b : Byte) : Outputs :=
  { loadOut a b with
    vramOff := vramOffset a, vramRe := true, calls := [.vramRead (vramOffset a)] }

/-- ST8 through the VRAM port: `VramWrite`, then `VramNotify` of the same offset (R43, R125). -/
def vramWriteOut (a : Addr) (v : Byte) : Outputs :=
  { idleOut a with
    vramOff := vramOffset a, vramWe := true, vramWdata := v, vramNotify := true
    calls := [.vramWrite (vramOffset a) v, .vramNotify (vramOffset a)] }

/-- LD8 through the I/O port: `IoRead(id)`, answered by `b` (R138, R142). -/
def ioReadOut (a : Addr) (id : Byte) (b : Byte) : Outputs :=
  { loadOut a b with ioId := id, ioRe := true, calls := [.ioRead id] }

/-- ST8 through the I/O port: `IoWrite(id, v)` (R139, R143). -/
def ioWriteOut (a : Addr) (id : Byte) (v : Byte) : Outputs :=
  { idleOut a with ioId := id, ioWe := true, ioWdata := v, calls := [.ioWrite id v] }

end Sys2Proof.Machine
end

