-- ==== Sys2Proof/Machine/Ops.lean ====
section
/-! DEFINITION. The named operations over the block's memories, registers and ports: reading and writing one byte of ROM, WRAM and HRAM (00_scope.md R10), admitting a request (40_decoder.md R120), completing a load or a store, the values a released session leaves unspecified, and taking the next input. The block has no trap, so there is no exception entry and no return from one (60_exceptions.md R223 to R225). -/

namespace Sys2Proof.Machine

/-! ### Memories: sparse lists in canonical form -/

/-- The listed byte at an offset. -/
def Memory.find : Memory → Nat → Option Byte
  | [], _ => none
  | (k, v) :: m, o => if k = o then some v else Memory.find m o

/-- List byte `v` at offset `o`, keeping the offsets rising. -/
def Memory.set : Memory → Nat → Byte → Memory
  | [], o, v => [(o, v)]
  | (k, w) :: m, o, v =>
    if o < k then (o, v) :: (k, w) :: m
    else if o = k then (o, v) :: m
    else (k, w) :: Memory.set m o v

/-- Unlist offset `o`. -/
def Memory.erase (m : Memory) (o : Nat) : Memory := m.filter (fun c => c.1 != o)

/-- Every listed offset is at least `lo`, and the offsets rise strictly. -/
def Memory.risingFrom : Nat → Memory → Bool
  | _, [] => true
  | lo, (k, _) :: m => decide (lo ≤ k) && Memory.risingFrom (k + 1) m

/-- The canonical form of a memory of `size` bytes whose unlisted offsets read as `unlisted`
(`none`: no value the model knows): offsets strictly rising and below `size`, and no entry equal
to what an unlisted offset reads as. -/
def Memory.wf (unlisted : Option Byte) (size : Nat) (m : Memory) : Bool :=
  Memory.risingFrom 0 m && m.all (fun c => decide (c.1 < size) && (some c.2 != unlisted))

/-- Byte `o` of the image, for `o < ROM_SIZE` (R9); an unlisted offset holds 0x00 (log 2). -/
def Rom.byte (r : Rom) (o : Nat) : Byte := (Memory.find r.cells o).getD 0#8

/-- The image's bytes are in canonical form. -/
def Rom.wf (r : Rom) : Bool := Memory.wf (some 0#8) r.size r.cells

/-- What an unlisted offset reads as (R27, R28; log 7, 8). -/
def Fill.byte : Fill → Nat → Byte
  | .zero, _ => 0#8
  | .free n, o => Config.freeByte n o

/-- The byte every unlisted offset is known to hold, if there is one. -/
def Fill.known : Fill → Option Byte
  | .zero => some 0#8
  | .free _ => none

/-- The byte at an offset of a block-owned memory. -/
def Block.read (b : Block) (o : Nat) : Byte := (Memory.find b.cells o).getD (b.fill.byte o)

/-- Store a byte at an offset, keeping the canonical form. -/
def Block.write (b : Block) (o : Nat) (v : Byte) : Block :=
  if b.fill.known = some v then { b with cells := Memory.erase b.cells o }
  else { b with cells := Memory.set b.cells o v }

/-- A memory of `size` bytes is in canonical form. -/
def Block.wf (size : Nat) (b : Block) : Bool := Memory.wf b.fill.known size b.cells

/-- An image the loader may supply is in canonical form; a cycle is always so. -/
def Input.wf : Input → Bool
  | .cycle _ => true
  | .loadImage r => Rom.wf r

/-! ### Named updates of the state -/

/-- Drive the outputs of the request. -/
def State.withOut (s : State) (o : Outputs) : State := { s with out := o }

/-- Write the two bank registers together, in one request (R24, R75). -/
def State.withBank (s : State) (b : BitVec 7) (base : BitVec 21) : State :=
  { s with currentBank := b, romBankBase := base }

/-- Replace working RAM. -/
def State.withWram (s : State) (w : Option Block) : State := { s with wram := w }

/-- Replace high RAM. -/
def State.withHram (s : State) (h : Block) : State := { s with hram := h }

/-- Replace the inputs to come. -/
def State.withInputs (s : State) (l : List Input) : State := { s with inputs := l }

/-- Present the input signals of a cycle. -/
def State.withPins (s : State) (p : Pins) : State := { s with pins := p }

/-- Replace the cartridge image. -/
def State.withRom (s : State) (r : Option Rom) : State := { s with rom := r }

/-! ### Reading and writing one byte (R10) -/

/-- ROM_SIZE: 0 when no image is supplied (log 2). -/
def State.romSize (s : State) : Nat :=
  match s.rom with
  | some r => r.size
  | none => 0

/-- `MemRead(ROM, o)`, for `o < ROM_SIZE` (R9, R10; U17). -/
def State.readRom (s : State) (o : Nat) : Except Fault Byte :=
  match s.rom with
  | some r => if o < r.size then .ok (Rom.byte r o) else .error .romOffsetOutOfImage
  | none => .error .romOffsetOutOfImage

/-- `MemRead(WRAM, o)`, for `o < WRAM_SIZE` (R9, R10). -/
def State.readWram (s : State) (o : Nat) : Except Fault Byte :=
  match s.wram with
  | some b => if o < wramSize then .ok (b.read o) else .error .wramOffsetOutOfRange
  | none => .error .wramNotAllocated

/-- `MemWrite(WRAM, o, v)` (R10). -/
def State.writeWram (s : State) (o : Nat) (v : Byte) : Except Fault State :=
  match s.wram with
  | some b =>
    if o < wramSize then .ok (s.withWram (some (b.write o v))) else .error .wramOffsetOutOfRange
  | none => .error .wramNotAllocated

/-- `MemRead(HRAM, i)`, for `i < HRAM_SIZE` (R9, R10). -/
def State.readHram (s : State) (i : Nat) : Except Fault Byte :=
  if i < hramSize then .ok (s.hram.read i) else .error .hramIndexOutOfRange

/-- `MemWrite(HRAM, i, v)` (R10). -/
def State.writeHram (s : State) (i : Nat) (v : Byte) : Except Fault State :=
  if i < hramSize then .ok (s.withHram (s.hram.write i v)) else .error .hramIndexOutOfRange

/-! ### Admission and completion -/

/-- A load or store is admitted only in a session: `refuse(NoSession)` otherwise (R30, R120). -/
def inSession (s : State) (k : Result) : Result :=
  if s.active then k else .refused .noSession

/-- LD16 and ST16 are refused in addition while STRICT_UNIMPL is on (R120). -/
def inSessionWide (s : State) (k : Result) : Result :=
  inSession s (if s.config.strictUnimpl then .refused .strictUnimpl else k)

/-- Complete a request that writes no block state: drive its outputs. -/
def respond (s : State) (o : Outputs) : Result := .next (s.withOut o)

/-- Complete a load of a block-owned byte (R41). -/
def completeLoad (s : State) (a : Addr) : Except Fault Byte → Result
  | .ok b => respond s (loadOut a b)
  | .error f => .fault f

/-- Complete a store to a block-owned byte: every output is idle (R41). -/
def completeStore (a : Addr) : Except Fault State → Result
  | .ok t => respond t (idleOut a)
  | .error f => .fault f

/-- The registers and high RAM become unspecified: the free values of the next draw (R252, R256,
U3; log 8). -/
def unspecify (s : State) : State :=
  { s with
    controllerType := Config.freeController s.draws
    currentBank := Config.freeBank s.draws
    romBankBase := Config.freeRomBase s.draws
    workingRamBankBase := Config.freeWramBase s.draws
    hram := { cells := [], fill := .free s.draws }
    draws := s.draws + 1 }

/-! ### The input ports -/

/-- What stands at the inputs: nothing or an idle cycle, an image from the loader, or a request. -/
inductive Presented where
  | idle
  | image (r : Rom)
  | request (w : RequestWord)
deriving DecidableEq, Repr

/-- Take the next input. A request comes with the other signals of its cycle, which stand on the pins
while it executes (R40, R43, R44, R48). An idle cycle changes nothing (R101, R232), and with it, as with an
image from the loader, the cycle of the request before it is over, so that request's diagnostic is no
longer visible (R225; log 4). -/
def takeInput (s : State) : Presented × State :=
  match s.inputs with
  | [] => (.idle, s.withOut (dropDiag s.out))
  | .loadImage r :: rest => (.image r, (s.withOut (dropDiag s.out)).withInputs rest)
  | .cycle c :: rest =>
    if c.reqValid then (.request c.word, (s.withInputs rest).withPins c.pins)
    else (.idle, (s.withOut (dropDiag s.out)).withInputs rest)

/-- The loader supplies the image and ROM_SIZE: before a RESET, and not again until the next DEINIT
(R48, R261; log 12). -/
def supplyImage (r : Rom) (s : State) : Result :=
  if s.romLocked then .refused .imageLocked else .next (s.withRom (some r))

/-- The refusal of a word that is no request (R93, R120). -/
def refuseWord : Rejection → Result
  | .reservedOp => .refused .reservedOp

/-- Present a request word as the next cycle; the other input signals keep their level. -/
def presentWord (s : State) (w : RequestWord) : State :=
  s.withInputs (.cycle { reqValid := true, word := w, pins := s.pins } :: s.inputs)

end Sys2Proof.Machine
end

