-- ==== Sys2Proof/Machine/BankController.lean ====
section
/-! DEFINITION. The Bank Controller: the switch procedure and the register-write decode of the six variants (41_bank_controller.md R185, R189 to R201), and the ST8 rows of the four slots (40_decoder.md R121). -/

namespace Sys2Proof.Machine

/-- `bankStart = b * 0x4000`, exact (R185, R8). -/
def bankStart (b : BitVec 7) : Nat := b.toNat * romBankSize

/-- `trySwitch(b)`: reject a bank that would reach beyond ROM_SIZE, else write both bank registers (R185). -/
def trySwitch (a : Addr) (b : BitVec 7) (s : State) : State :=
  if bankStart b + romBankSize > s.romSize then
    s.withOut (raise .bankOor (b.setWidth 16) (bsrResult .rejected b (idleOut a)))
  else
    (s.withBank b (BitVec.ofNat 21 (bankStart b))).withOut (bsrResult .applied b (idleOut a))

/-- A register write that changes nothing and raises no diagnostic (R193, R197, R201). -/
def mbcNoop (a : Addr) (s : State) : State := s.withOut (bsrResult .noop 0#7 (idleOut a))

/-- A register write that changes nothing and raises a diagnostic with the address (R190, R191, R194,
R195, R198, R199). -/
def mbcPlaceholder (code : DiagCode) (a : Addr) (s : State) : State :=
  s.withOut (raise code a (bsrResult .noop 0#7 (idleOut a)))

/-- The decode shared by Type1, Type3 and Type5: slot 0 is the RAM-enable placeholder, slot 1 selects
the bank, every other slot is a no-op (R189, C1). -/
def bankedWrite (a : Addr) (bank : BitVec 7) (s : State) : State :=
  if slotOf a = 0#3 then mbcPlaceholder .unimplRamen a s
  else if slotOf a = 1#3 then trySwitch a bank s
  else mbcNoop a s

/-- `MBC_write(controllerType, a, v)`: one dispatch point keyed by the variant (R189). -/
def mbcWrite (a : Addr) (v : Byte) (s : State) : State :=
  match s.controllerType with
  | .typeNone => mbcPlaceholder .unimplRamen a s
  | .type1 => bankedWrite a (bankT1 v s.currentBank) s
  | .type2 => mbcPlaceholder .unimplMbc a s
  | .type3 => bankedWrite a (bankT3 v) s
  | .type4 => mbcPlaceholder .unimplMbc a s
  | .type5 => bankedWrite a (bankT5 v) s

/-- ST8.MBC.S0 (R121). Slot 0. -/
def execSt8MbcS0 (a : Addr) (v : Byte) (s : State) : Result :=
  inSession s (.next (mbcWrite a v s))

/-- ST8.MBC.S1 (R121). Slot 1. -/
def execSt8MbcS1 (a : Addr) (v : Byte) (s : State) : Result :=
  inSession s (.next (mbcWrite a v s))

/-- ST8.MBC.S2 (R121). Slot 2. -/
def execSt8MbcS2 (a : Addr) (v : Byte) (s : State) : Result :=
  inSession s (.next (mbcWrite a v s))

/-- ST8.MBC.S3 (R121). Slot 3. -/
def execSt8MbcS3 (a : Addr) (v : Byte) (s : State) : Result :=
  inSession s (.next (mbcWrite a v s))

end Sys2Proof.Machine
end

