-- ==== Sys2Proof/Machine/Lifecycle.lean ====
section
/-! DEFINITION. The lifecycle operations INIT, RESET and DEINIT (70_reset_and_hazards.md R250 to R256). They are admitted in every state, but for the precondition of RESET (R120, R252). -/

namespace Sys2Proof.Machine

/-- The state after INIT: zeroed bank registers, no session, no working RAM; the image and high RAM
are not touched (R250). -/
def afterInit (a : Addr) (s : State) : State :=
  { s with
    controllerType := .typeNone
    currentBank := 0#7
    romBankBase := 0#21
    workingRamBankBase := 0#13
    active := false
    wram := none
    out := idleOut a }

/-- The outputs of a successful RESET whose type byte is `t`: OK, and UNKNOWN_CART_TYPE for a fallback
value (R47, R180, R252). -/
def resetOut (a : Addr) (t : Byte) : Outputs :=
  if isFallback t then raise .unknownCartType (t.setWidth 16) { idleOut a with resetStatus := .ok }
  else { idleOut a with resetStatus := .ok }

/-- The state after a successful RESET with image `r`: a new session at bank 1, the variant of the
header byte, working RAM freshly allocated with unspecified contents, high RAM zeroed (R252, R253). -/
def afterReset (a : Addr) (r : Rom) (s : State) : State :=
  { s with
    romBankBase := 0x4000#21
    currentBank := 1#7
    controllerType := variantOf (Rom.byte r cartTypeOffset)
    workingRamBankBase := s.config.wramBankNOffset
    wram := some { cells := [], fill := .free s.draws }
    hram := { cells := [], fill := .zero }
    active := true
    romLocked := true
    draws := s.draws + 1
    out := resetOut a (Rom.byte r cartTypeOffset) }

/-- The state after a RESET whose allocation failed: no session, no working RAM, the other registers
unspecified, FAIL reported (R252, R254). The header is not read. -/
def afterFailedReset (a : Addr) (s : State) : State :=
  { unspecify s with
    active := false
    wram := none
    romLocked := true
    out := raise .resetAllocFail 0#16 { idleOut a with resetStatus := .fail } }

/-- The state after DEINIT: no session, working RAM and the image released, the registers
unspecified (R256). -/
def afterDeinit (a : Addr) (s : State) : State :=
  { unspecify s with
    active := false
    wram := none
    rom := none
    romLocked := false
    out := idleOut a }

/-- INIT (R250). -/
def execInit (a : Addr) (s : State) : Result :=
  .next (afterInit a s)

/-- RESET (R252). Refused without an image of at least 0x8000 bytes; `alloc_ok` is sampled. -/
def execReset (a : Addr) (s : State) : Result :=
  match s.rom with
  | none => .refused .romTooSmall
  | some r =>
    if r.size < minRomSize then .refused .romTooSmall
    else .next (if s.pins.allocOk then afterReset a r s else afterFailedReset a s)

/-- DEINIT (R256). -/
def execDeinit (a : Addr) (s : State) : Result :=
  .next (afterDeinit a s)

end Sys2Proof.Machine
end

