-- ==== Sys2Proof/Machine/Loads.lean ====
section
/-! DEFINITION. LD8, one meaning per row: the twelve region rules of 40_decoder.md R122 to R142. -/

namespace Sys2Proof.Machine

/-- LD8 from the echo region: the same byte as in bank N (R132). -/
def loadEcho (a : Addr) (s : State) : Result :=
  inSession s (completeLoad s a (s.readWram (wramNOffset s a)))

/-- LD8 from OAM: 0x0000 and UNIMPL_OAM (R134). -/
def loadOam (a : Addr) (s : State) : Result :=
  inSession s (respond s (raise .unimplOam a (loadOut a 0#8)))

/-- LD8 from the unusable region: 0x0000 and no diagnostic (R136). -/
def loadUnusable (a : Addr) (s : State) : Result :=
  inSession s (respond s (loadOut a 0#8))

/-- LD8 from high RAM (R140). -/
def loadHram (a : Addr) (s : State) : Result :=
  inSession s (completeLoad s a (s.readHram (hramIndex a)))

/-- LD8.ROM0 (R122). Independent of the bank registers. -/
def execLd8Rom0 (a : Addr) (s : State) : Result :=
  inSession s (completeLoad s a (s.readRom (rom0Offset a)))

/-- LD8.ROMN (R123). Reads the bank window. -/
def execLd8RomN (a : Addr) (s : State) : Result :=
  inSession s (completeLoad s a (s.readRom (romNOffset s a)))

/-- LD8.VRAM (R124). The byte is the video collaborator's. -/
def execLd8Vram (a : Addr) (s : State) : Result :=
  inSession s (respond s (vramReadOut a s.pins.vramRdata))

/-- LD8.EXTRAM (R126). 0x0000 and UNIMPL_EXTRAM, whatever the variant. -/
def execLd8Extram (a : Addr) (s : State) : Result :=
  inSession s (respond s (raise .unimplExtram a (loadOut a 0#8)))

/-- LD8.WRAM0 (R128). -/
def execLd8Wram0 (a : Addr) (s : State) : Result :=
  inSession s (completeLoad s a (s.readWram (wram0Offset a)))

/-- LD8.WRAMN (R130). -/
def execLd8WramN (a : Addr) (s : State) : Result :=
  inSession s (completeLoad s a (s.readWram (wramNOffset s a)))

/-- LD8.ECHO.0 (R132). -/
def execLd8Echo0 (a : Addr) (s : State) : Result :=
  loadEcho a s

/-- LD8.ECHO.1 (R132). -/
def execLd8Echo1 (a : Addr) (s : State) : Result :=
  loadEcho a s

/-- LD8.ECHO.2 (R132). -/
def execLd8Echo2 (a : Addr) (s : State) : Result :=
  loadEcho a s

/-- LD8.ECHO.3 (R132). -/
def execLd8Echo3 (a : Addr) (s : State) : Result :=
  loadEcho a s

/-- LD8.OAM.0 (R134). -/
def execLd8Oam0 (a : Addr) (s : State) : Result :=
  loadOam a s

/-- LD8.OAM.1 (R134). -/
def execLd8Oam1 (a : Addr) (s : State) : Result :=
  loadOam a s

/-- LD8.UNUSABLE.0 (R136). -/
def execLd8Unusable0 (a : Addr) (s : State) : Result :=
  loadUnusable a s

/-- LD8.UNUSABLE.1 (R136). -/
def execLd8Unusable1 (a : Addr) (s : State) : Result :=
  loadUnusable a s

/-- LD8.IO (R138). The byte is the I/O collaborator's. -/
def execLd8Io (a : Addr) (s : State) : Result :=
  inSession s (respond s (ioReadOut a (ioRegister a) s.pins.ioRdata))

/-- LD8.HRAM.0 (R140). -/
def execLd8Hram0 (a : Addr) (s : State) : Result :=
  loadHram a s

/-- LD8.HRAM.1 (R140). -/
def execLd8Hram1 (a : Addr) (s : State) : Result :=
  loadHram a s

/-- LD8.HRAM.2 (R140). -/
def execLd8Hram2 (a : Addr) (s : State) : Result :=
  loadHram a s

/-- LD8.HRAM.3 (R140). -/
def execLd8Hram3 (a : Addr) (s : State) : Result :=
  loadHram a s

/-- LD8.HRAM.4 (R140). -/
def execLd8Hram4 (a : Addr) (s : State) : Result :=
  loadHram a s

/-- LD8.HRAM.5 (R140). -/
def execLd8Hram5 (a : Addr) (s : State) : Result :=
  loadHram a s

/-- LD8.HRAM.6 (R140). -/
def execLd8Hram6 (a : Addr) (s : State) : Result :=
  loadHram a s

/-- LD8.IE (R142). Delegated with the fixed id IE_REG_ID. -/
def execLd8Ie (a : Addr) (s : State) : Result :=
  inSession s (respond s (ioReadOut a s.config.ieRegId s.pins.ioRdata))

end Sys2Proof.Machine
end

