-- ==== Sys2Proof/Machine/Stores.lean ====
section
/-! DEFINITION. ST8 outside the cartridge region, one meaning per row: 40_decoder.md R125 to R143. -/

namespace Sys2Proof.Machine

/-- ST8 to the echo region: the same byte as in bank N (R133). -/
def storeEcho (a : Addr) (v : Byte) (s : State) : Result :=
  inSession s (completeStore a (s.writeWram (wramNOffset s a) v))

/-- ST8 to OAM: UNIMPL_OAM and nothing else (R135). -/
def storeOam (a : Addr) (s : State) : Result :=
  inSession s (respond s (raise .unimplOam a (idleOut a)))

/-- ST8 to the unusable region: nothing (R137). -/
def storeUnusable (a : Addr) (s : State) : Result :=
  inSession s (respond s (idleOut a))

/-- ST8 to high RAM (R141). -/
def storeHram (a : Addr) (v : Byte) (s : State) : Result :=
  inSession s (completeStore a (s.writeHram (hramIndex a) v))

/-- ST8.VRAM (R125). Write the buffer, then notify; no block state is written. -/
def execSt8Vram (a : Addr) (v : Byte) (s : State) : Result :=
  inSession s (respond s (vramWriteOut a v))

/-- ST8.EXTRAM (R127). UNIMPL_EXTRAM and nothing else. -/
def execSt8Extram (a : Addr) (_v : Byte) (s : State) : Result :=
  inSession s (respond s (raise .unimplExtram a (idleOut a)))

/-- ST8.WRAM0 (R129). -/
def execSt8Wram0 (a : Addr) (v : Byte) (s : State) : Result :=
  inSession s (completeStore a (s.writeWram (wram0Offset a) v))

/-- ST8.WRAMN (R131). -/
def execSt8WramN (a : Addr) (v : Byte) (s : State) : Result :=
  inSession s (completeStore a (s.writeWram (wramNOffset s a) v))

/-- ST8.ECHO.0 (R133). -/
def execSt8Echo0 (a : Addr) (v : Byte) (s : State) : Result :=
  storeEcho a v s

/-- ST8.ECHO.1 (R133). -/
def execSt8Echo1 (a : Addr) (v : Byte) (s : State) : Result :=
  storeEcho a v s

/-- ST8.ECHO.2 (R133). -/
def execSt8Echo2 (a : Addr) (v : Byte) (s : State) : Result :=
  storeEcho a v s

/-- ST8.ECHO.3 (R133). -/
def execSt8Echo3 (a : Addr) (v : Byte) (s : State) : Result :=
  storeEcho a v s

/-- ST8.OAM.0 (R135). -/
def execSt8Oam0 (a : Addr) (_v : Byte) (s : State) : Result :=
  storeOam a s

/-- ST8.OAM.1 (R135). -/
def execSt8Oam1 (a : Addr) (_v : Byte) (s : State) : Result :=
  storeOam a s

/-- ST8.UNUSABLE.0 (R137). -/
def execSt8Unusable0 (a : Addr) (_v : Byte) (s : State) : Result :=
  storeUnusable a s

/-- ST8.UNUSABLE.1 (R137). -/
def execSt8Unusable1 (a : Addr) (_v : Byte) (s : State) : Result :=
  storeUnusable a s

/-- ST8.IO (R139). No block state is written. -/
def execSt8Io (a : Addr) (v : Byte) (s : State) : Result :=
  inSession s (respond s (ioWriteOut a (ioRegister a) v))

/-- ST8.HRAM.0 (R141). -/
def execSt8Hram0 (a : Addr) (v : Byte) (s : State) : Result :=
  storeHram a v s

/-- ST8.HRAM.1 (R141). -/
def execSt8Hram1 (a : Addr) (v : Byte) (s : State) : Result :=
  storeHram a v s

/-- ST8.HRAM.2 (R141). -/
def execSt8Hram2 (a : Addr) (v : Byte) (s : State) : Result :=
  storeHram a v s

/-- ST8.HRAM.3 (R141). -/
def execSt8Hram3 (a : Addr) (v : Byte) (s : State) : Result :=
  storeHram a v s

/-- ST8.HRAM.4 (R141). -/
def execSt8Hram4 (a : Addr) (v : Byte) (s : State) : Result :=
  storeHram a v s

/-- ST8.HRAM.5 (R141). -/
def execSt8Hram5 (a : Addr) (v : Byte) (s : State) : Result :=
  storeHram a v s

/-- ST8.HRAM.6 (R141). -/
def execSt8Hram6 (a : Addr) (v : Byte) (s : State) : Result :=
  storeHram a v s

/-- ST8.IE (R143). Delegated with the fixed id IE_REG_ID. -/
def execSt8Ie (a : Addr) (v : Byte) (s : State) : Result :=
  inSession s (respond s (ioWriteOut a s.config.ieRegId v))

end Sys2Proof.Machine
end

