-- ==== Sys2Proof/Machine/Wide.lean ====
section
/-! DEFINITION. The 16-bit placeholders LD16 and ST16: a distinct path that touches no memory and no collaborator (40_decoder.md R144, R145). -/

namespace Sys2Proof.Machine

/-- LD16 (R144). `rsp_rdata` is 0x0000, its idle value; the two bytes are not read. -/
def execLd16 (a : Addr) (s : State) : Result :=
  inSessionWide s (respond s (raise .unimplWide a (idleOut a)))

/-- ST16 (R145). UNIMPL_WIDE and nothing else. -/
def execSt16 (a : Addr) (_d : Half) (s : State) : Result :=
  inSessionWide s (respond s (raise .unimplWide a (idleOut a)))

end Sys2Proof.Machine
end

