-- ==== Sys2Proof/Machine/Dispatch.lean ====
section
/-! DEFINITION. The dispatch of a request to its meaning, one arm per row of the opcode table (40_decoder.md R120). -/

namespace Sys2Proof.Machine

/-- The meaning of an instruction. -/
def exec (i : Instr) (s : State) : Host.Outcome State Fault Refusal :=
  match i with
  | .ld8Rom0 a => Sys2Proof.Machine.execLd8Rom0 a s
  | .ld8RomN a => Sys2Proof.Machine.execLd8RomN a s
  | .ld8Vram a => Sys2Proof.Machine.execLd8Vram a s
  | .ld8Extram a => Sys2Proof.Machine.execLd8Extram a s
  | .ld8Wram0 a => Sys2Proof.Machine.execLd8Wram0 a s
  | .ld8WramN a => Sys2Proof.Machine.execLd8WramN a s
  | .ld8Echo0 a => Sys2Proof.Machine.execLd8Echo0 a s
  | .ld8Echo1 a => Sys2Proof.Machine.execLd8Echo1 a s
  | .ld8Echo2 a => Sys2Proof.Machine.execLd8Echo2 a s
  | .ld8Echo3 a => Sys2Proof.Machine.execLd8Echo3 a s
  | .ld8Oam0 a => Sys2Proof.Machine.execLd8Oam0 a s
  | .ld8Oam1 a => Sys2Proof.Machine.execLd8Oam1 a s
  | .ld8Unusable0 a => Sys2Proof.Machine.execLd8Unusable0 a s
  | .ld8Unusable1 a => Sys2Proof.Machine.execLd8Unusable1 a s
  | .ld8Io a => Sys2Proof.Machine.execLd8Io a s
  | .ld8Hram0 a => Sys2Proof.Machine.execLd8Hram0 a s
  | .ld8Hram1 a => Sys2Proof.Machine.execLd8Hram1 a s
  | .ld8Hram2 a => Sys2Proof.Machine.execLd8Hram2 a s
  | .ld8Hram3 a => Sys2Proof.Machine.execLd8Hram3 a s
  | .ld8Hram4 a => Sys2Proof.Machine.execLd8Hram4 a s
  | .ld8Hram5 a => Sys2Proof.Machine.execLd8Hram5 a s
  | .ld8Hram6 a => Sys2Proof.Machine.execLd8Hram6 a s
  | .ld8Ie a => Sys2Proof.Machine.execLd8Ie a s
  | .st8MbcS0 a v => Sys2Proof.Machine.execSt8MbcS0 a v s
  | .st8MbcS1 a v => Sys2Proof.Machine.execSt8MbcS1 a v s
  | .st8MbcS2 a v => Sys2Proof.Machine.execSt8MbcS2 a v s
  | .st8MbcS3 a v => Sys2Proof.Machine.execSt8MbcS3 a v s
  | .st8Vram a v => Sys2Proof.Machine.execSt8Vram a v s
  | .st8Extram a v => Sys2Proof.Machine.execSt8Extram a v s
  | .st8Wram0 a v => Sys2Proof.Machine.execSt8Wram0 a v s
  | .st8WramN a v => Sys2Proof.Machine.execSt8WramN a v s
  | .st8Echo0 a v => Sys2Proof.Machine.execSt8Echo0 a v s
  | .st8Echo1 a v => Sys2Proof.Machine.execSt8Echo1 a v s
  | .st8Echo2 a v => Sys2Proof.Machine.execSt8Echo2 a v s
  | .st8Echo3 a v => Sys2Proof.Machine.execSt8Echo3 a v s
  | .st8Oam0 a v => Sys2Proof.Machine.execSt8Oam0 a v s
  | .st8Oam1 a v => Sys2Proof.Machine.execSt8Oam1 a v s
  | .st8Unusable0 a v => Sys2Proof.Machine.execSt8Unusable0 a v s
  | .st8Unusable1 a v => Sys2Proof.Machine.execSt8Unusable1 a v s
  | .st8Io a v => Sys2Proof.Machine.execSt8Io a v s
  | .st8Hram0 a v => Sys2Proof.Machine.execSt8Hram0 a v s
  | .st8Hram1 a v => Sys2Proof.Machine.execSt8Hram1 a v s
  | .st8Hram2 a v => Sys2Proof.Machine.execSt8Hram2 a v s
  | .st8Hram3 a v => Sys2Proof.Machine.execSt8Hram3 a v s
  | .st8Hram4 a v => Sys2Proof.Machine.execSt8Hram4 a v s
  | .st8Hram5 a v => Sys2Proof.Machine.execSt8Hram5 a v s
  | .st8Hram6 a v => Sys2Proof.Machine.execSt8Hram6 a v s
  | .st8Ie a v => Sys2Proof.Machine.execSt8Ie a v s
  | .ld16 a => Sys2Proof.Machine.execLd16 a s
  | .st16 a d => Sys2Proof.Machine.execSt16 a d s
  | .init a => Sys2Proof.Machine.execInit a s
  | .reset a => Sys2Proof.Machine.execReset a s
  | .deinit a => Sys2Proof.Machine.execDeinit a s

end Sys2Proof.Machine
end

