-- ==== Sys2Proof/Machine/Step.lean ====
section
/-! DEFINITION. One step: take the next input; an idle cycle changes nothing but that the last request's diagnostic is over, an image is supplied, a request is decoded and executed (10_state.md R40, 40_decoder.md R120). -/

namespace Sys2Proof.Machine

/-- One input cycle (R71, R262). With no input to take, the request port is idle (R101, R232). The
last request's diagnostic is visible in no cycle but its own (R225). -/
def step (s : State) : Host.Outcome State Fault Refusal :=
  match takeInput s with
  | (.idle, t) => .next t
  | (.image r, t) => supplyImage r t
  | (.request w, t) =>
    match decode w with
    | .ok i => exec i t
    | .error e => refuseWord e

/-- `s` with a request word presented as the next cycle, the other input signals at the level they
have. The block has no program counter (R25): a program is the sequence of requests presented from
outside. See log 1. -/
def State.withFetchWord (s : State) (_nbits w : Nat) : State := presentWord s (requestOfNat w)

end Sys2Proof.Machine
end

