-- ==== Sys2Proof/Safety.lean ====
section
/-! DEFINITION. What holds of a sound state: the invariant of a session and of the block's memories (10_state.md R20 to R31), in the terms the claims use. -/

namespace Sys2Proof.Machine

/-- The header byte ROM[0x147] of the image the state holds (R180). -/
def State.typeByte (s : State) : Byte :=
  match s.rom with
  | some r => Rom.byte r cartTypeOffset
  | none => 0#8

/-- The banks a variant can stand at: None, Type2 and Type4 never leave bank 1; Type1 stays in 1 to 31
and Type3 never selects bank 0; Type5 may hold any bank (R21, R192, R202). -/
def bankAllowed (ct : Controller) (b : BitVec 7) : Prop :=
  match ct with
  | .type1 => 1 ≤ b.toNat ∧ b.toNat ≤ 31
  | .type3 => 1 ≤ b.toNat
  | .type5 => True
  | .typeNone => b = 1#7
  | .type2 => b = 1#7
  | .type4 => b = 1#7

/-- What holds in a session (R22, R23, R28, R31). -/
structure State.Session (s : State) : Prop where
  /-- The image a RESET admitted (R7). -/
  rom_size : minRomSize ≤ s.romSize
  /-- R31: WRAM is allocated, with contents unspecified where not written (R27). -/
  wram_allocated : ∃ b n, s.wram = some b ∧ b.fill = .free n
  /-- R31: the bank window lies inside the image. -/
  window_in_image : s.romBankBase.toNat + romBankSize ≤ s.romSize
  /-- R22. -/
  base_of_bank : s.romBankBase.toNat = s.currentBank.toNat * romBankSize
  /-- R31: the variant is derived from the header type byte. -/
  variant_of_header : s.controllerType = variantOf s.typeByte
  /-- R21, R202. -/
  bank_allowed : bankAllowed s.controllerType s.currentBank
  /-- R23. -/
  wram_base : s.workingRamBankBase = s.config.wramBankNOffset
  /-- R28: an unwritten byte of high RAM is 0x00. -/
  hram_zeroed : s.hram.fill = .zero
  /-- R48, R261: the image may not change. -/
  image_locked : s.romLocked = true

/-- The invariant: every memory is in canonical form, the parameters are in their range, and an active
session is one. -/
structure State.Inv (s : State) : Prop where
  config_wf : s.config.wf = true
  rom_wf : ∀ r, s.rom = some r → Rom.wf r = true
  wram_wf : ∀ b, s.wram = some b → Block.wf wramSize b = true
  hram_wf : Block.wf hramSize s.hram = true
  inputs_wf : ∀ x ∈ s.inputs, Input.wf x = true
  session : s.active = true → s.Session

/-- Two states agree on every register, parameter and port signal but the outputs: what a request
that only loads, or stores a byte, leaves alone. Memories are stated apart, byte by byte. -/
structure State.SameRegisters (s t : State) : Prop where
  config : t.config = s.config
  controllerType : t.controllerType = s.controllerType
  currentBank : t.currentBank = s.currentBank
  romBankBase : t.romBankBase = s.romBankBase
  workingRamBankBase : t.workingRamBankBase = s.workingRamBankBase
  active : t.active = s.active
  romLocked : t.romLocked = s.romLocked
  pins : t.pins = s.pins
  inputs : t.inputs = s.inputs
  draws : t.draws = s.draws

/-- Every byte of the image reads as before. -/
def State.SameRom (s t : State) : Prop := t.romSize = s.romSize ∧ ∀ o, t.readRom o = s.readRom o

/-- Every byte of working RAM reads as before. -/
def State.SameWram (s t : State) : Prop := ∀ o, t.readWram o = s.readWram o

/-- Every byte of high RAM reads as before. -/
def State.SameHram (s t : State) : Prop := ∀ i, t.readHram i = s.readHram i

/-- What a request that stores no block-owned byte leaves alone: every register and every byte. -/
structure State.SameBlock (s t : State) : Prop where
  registers : s.SameRegisters t
  rom : s.SameRom t
  wram : s.SameWram t
  hram : s.SameHram t

/-- The store of byte `v` at working-RAM offset `o` and nothing else, every output idle. -/
structure State.StoresWram (s t : State) (a : Addr) (o : Nat) (v : Byte) : Prop where
  stored : t.readWram o = .ok v
  others : ∀ p, p ≠ o → t.readWram p = s.readWram p
  registers : s.SameRegisters t
  rom : s.SameRom t
  hram : s.SameHram t
  outputs : t.out = idleOut a

/-- The store of byte `v` at high-RAM index `k` and nothing else, every output idle. -/
structure State.StoresHram (s t : State) (a : Addr) (k : Nat) (v : Byte) : Prop where
  stored : t.readHram k = .ok v
  others : ∀ p, p ≠ k → t.readHram p = s.readHram p
  registers : s.SameRegisters t
  rom : s.SameRom t
  wram : s.SameWram t
  outputs : t.out = idleOut a

/-! The rows of one rule, as lists of instructions. -/

/-- The LD8 rows of the echo region (R132). -/
def echoLoads (a : Addr) : List Instr := [.ld8Echo0 a, .ld8Echo1 a, .ld8Echo2 a, .ld8Echo3 a]

/-- The LD8 rows that read the bank-N window (R130, R132). -/
def bankNLoads (a : Addr) : List Instr := .ld8WramN a :: echoLoads a

/-- The ST8 rows of the echo region (R133). -/
def echoStores (a : Addr) (v : Byte) : List Instr :=
  [.st8Echo0 a v, .st8Echo1 a v, .st8Echo2 a v, .st8Echo3 a v]

/-- The LD8 rows of high RAM (R140). -/
def hramLoads (a : Addr) : List Instr :=
  [.ld8Hram0 a, .ld8Hram1 a, .ld8Hram2 a, .ld8Hram3 a, .ld8Hram4 a, .ld8Hram5 a, .ld8Hram6 a]

/-- The ST8 rows of high RAM (R141). -/
def hramStores (a : Addr) (v : Byte) : List Instr :=
  [.st8Hram0 a v, .st8Hram1 a v, .st8Hram2 a v, .st8Hram3 a v, .st8Hram4 a v, .st8Hram5 a v,
    .st8Hram6 a v]

/-- The ST8 rows of the cartridge region (R121). -/
def mbcStores (a : Addr) (v : Byte) : List Instr :=
  [.st8MbcS0 a v, .st8MbcS1 a v, .st8MbcS2 a v, .st8MbcS3 a v]

/-- The lifecycle operations (R2, R250, R252, R256). -/
def isLifecycle : Instr → Bool
  | .init _ => true
  | .reset _ => true
  | .deinit _ => true
  | _ => false

end Sys2Proof.Machine
end

