-- ==== Sys2Proof/Certificates/Slice0/Obligations.lean ====
section
/-! DEFINITION. The statements of this package, each formalising rules of spec/: encoding, address decode, every load and store rule, the Bank Controller, the lifecycle operations, and the promises the spec makes about the whole block. -/

open Sys2Proof Sys2Proof.Machine

/-! ### The request word -/

/-- Words written out from R91's layout and 95_test_vectors.md section 2.1 decode to the request they
stand for, one of each operation and the reserved op. -/
def Obligations.WrittenOutWordsDecode : Prop :=
  decode 0x040000000#35 = .ok (.ld8RomN 0x4000#16) ∧
  decode 0x0FE9F0000#35 = .ok (.ld8Oam1 0xFE9F#16) ∧
  decode 0x0FEA00000#35 = .ok (.ld8Unusable0 0xFEA0#16) ∧
  decode 0x121000002#35 = .ok (.st8MbcS1 0x2100#16 0x02#8) ∧
  decode 0x121001202#35 = .ok (.st8MbcS1 0x2100#16 0x02#8) ∧
  decode 0x1FFFE00EE#35 = .ok (.st8Hram6 0xFFFE#16 0xEE#8) ∧
  decode 0x2FFFF0000#35 = .ok (.ld16 0xFFFF#16) ∧
  decode 0x320000002#35 = .ok (.st16 0x2000#16 0x0002#16) ∧
  decode 0x400000000#35 = .ok (.init 0x0000#16) ∧
  decode 0x512340000#35 = .ok (.reset 0x1234#16) ∧
  decode 0x600000000#35 = .ok (.deinit 0x0000#16) ∧
  decode 0x700000000#35 = .error .reservedOp

/-- Decoding the word of a well-formed instruction gives it back, every operand at every value its row
admits (R90, R91, R94; opcode_table.json). -/
def Obligations.DecodeOfEncodeIsIdentity : Prop :=
  ∀ i : Instr, WellFormed i → decode (encode i) = .ok i

/-- 30_encoding.md section 1 and what R102 derives: every word whose op is not 111 selects exactly one
row of the table, and decodes to a well-formed instruction with the word's address. -/
def Obligations.EveryRequestSelectsExactlyOneRow : Prop :=
  ∀ w : RequestWord, reqOp w ≠ 0b111#3 →
    (opcodeRows.filter (fun r => r.selects w)).length = 1 ∧
    ∃ i, decode w = .ok i ∧ WellFormed i ∧ i.addr = reqAddr w

/-- R93: a word with `op = 111` spells no operation, and the block has no step for it. -/
def Obligations.ReservedOpHasNoStep : Prop :=
  ∀ w : RequestWord, reqOp w = 0b111#3 →
    decode w = .error .reservedOp ∧
    ∀ (s : State) (c : Cycle) (l : List Input), s.inputs = .cycle c :: l → c.reqValid = true →
      c.word = w → step s = .refused .reservedOp

/-- R92: two words with the same op and address decode alike, if ST8 words agree in `wdata[7:0]` and
ST16 words in `wdata`. -/
def Obligations.DecodeReadsOnlyTheFieldsOfTheOperation : Prop :=
  ∀ w w' : RequestWord, reqOp w = reqOp w' → reqAddr w = reqAddr w' →
    (reqOp w = 0b001#3 → (reqWdata w).toNat % 256 = (reqWdata w').toNat % 256) →
    (reqOp w = 0b011#3 → reqWdata w = reqWdata w') →
    decode w = decode w'

/-! ### Address decode -/

/-- The address map of 20_memory.md section 2: the twelve ranges and their ids, which partition the
address space (the partition is R63's own inference). -/
def Obligations.RegionsFollowTheAddressMap : Prop :=
  ∀ a : Addr,
    (regionId a = 0#4 ↔ a.toNat ≤ 0x3FFF) ∧
    (regionId a = 1#4 ↔ 0x4000 ≤ a.toNat ∧ a.toNat ≤ 0x7FFF) ∧
    (regionId a = 2#4 ↔ 0x8000 ≤ a.toNat ∧ a.toNat ≤ 0x9FFF) ∧
    (regionId a = 3#4 ↔ 0xA000 ≤ a.toNat ∧ a.toNat ≤ 0xBFFF) ∧
    (regionId a = 4#4 ↔ 0xC000 ≤ a.toNat ∧ a.toNat ≤ 0xCFFF) ∧
    (regionId a = 5#4 ↔ 0xD000 ≤ a.toNat ∧ a.toNat ≤ 0xDFFF) ∧
    (regionId a = 6#4 ↔ 0xE000 ≤ a.toNat ∧ a.toNat ≤ 0xFDFF) ∧
    (regionId a = 7#4 ↔ 0xFE00 ≤ a.toNat ∧ a.toNat ≤ 0xFE9F) ∧
    (regionId a = 8#4 ↔ 0xFEA0 ≤ a.toNat ∧ a.toNat ≤ 0xFEFF) ∧
    (regionId a = 9#4 ↔ 0xFF00 ≤ a.toNat ∧ a.toNat ≤ 0xFF7F) ∧
    (regionId a = 10#4 ↔ 0xFF80 ≤ a.toNat ∧ a.toNat ≤ 0xFFFE) ∧
    (regionId a = 11#4 ↔ a.toNat = 0xFFFF)

/-- 30_encoding.md section 2: the decode by the top bits is the same function as the table of match and
mask pairs that R94 derives. -/
def Obligations.RegionsAgreeWithMatchMaskPairs : Prop :=
  ∀ a : Addr,
    (regionId a = 0#4 ↔ a &&& 0xC000#16 = 0x0000#16) ∧
    (regionId a = 1#4 ↔ a &&& 0xC000#16 = 0x4000#16) ∧
    (regionId a = 2#4 ↔ a &&& 0xE000#16 = 0x8000#16) ∧
    (regionId a = 3#4 ↔ a &&& 0xE000#16 = 0xA000#16) ∧
    (regionId a = 4#4 ↔ a &&& 0xF000#16 = 0xC000#16) ∧
    (regionId a = 5#4 ↔ a &&& 0xF000#16 = 0xD000#16) ∧
    (regionId a = 6#4 ↔ a &&& 0xF000#16 = 0xE000#16 ∨ a &&& 0xF800#16 = 0xF000#16 ∨
      a &&& 0xFC00#16 = 0xF800#16 ∨ a &&& 0xFE00#16 = 0xFC00#16) ∧
    (regionId a = 7#4 ↔ a &&& 0xFF80#16 = 0xFE00#16 ∨ a &&& 0xFFE0#16 = 0xFE80#16) ∧
    (regionId a = 8#4 ↔ a &&& 0xFFE0#16 = 0xFEA0#16 ∨ a &&& 0xFFC0#16 = 0xFEC0#16) ∧
    (regionId a = 9#4 ↔ a &&& 0xFF80#16 = 0xFF00#16) ∧
    (regionId a = 10#4 ↔ a &&& 0xFFC0#16 = 0xFF80#16 ∨ a &&& 0xFFE0#16 = 0xFFC0#16 ∨
      a &&& 0xFFF0#16 = 0xFFE0#16 ∨ a &&& 0xFFF8#16 = 0xFFF0#16 ∨
      a &&& 0xFFFC#16 = 0xFFF8#16 ∨ a &&& 0xFFFE#16 = 0xFFFC#16 ∨ a &&& 0xFFFF#16 = 0xFFFE#16) ∧
    (regionId a = 11#4 ↔ a &&& 0xFFFF#16 = 0xFFFF#16)

/-- The region select of 10_state.md section 4: `region_sel` is the one-hot form of `region_id`, the
ids 12 to 15 are never produced, and both are driven from the address in every operation that
completes. That INIT, RESET and DEINIT, which ignore `addr` otherwise, drive them too is the model's
reading (log 10). -/
def Obligations.RegionSelectIsDrivenInEveryOperation : Prop :=
  (∀ (a : Addr) (k : Nat), k < 12 →
    ((regionSel a).getLsbD k = true ↔ (regionId a).toNat = k)) ∧
  (∀ a : Addr, (regionId a).toNat < 12) ∧
  (∀ (i : Instr) (s t : State), exec i s = .next t →
    t.out.regionId = regionId i.addr ∧ t.out.regionSel = regionSel i.addr)

/-! ### Loads and stores, region by region -/

/-- R122: LD8 from ROM bank 0 reads the image at `a & 0x3FFF`, whatever the bank state, and writes no
state. -/
def Obligations.LoadRom0ReadsTheFixedBank : Prop :=
  ∀ (a : Addr) (s : State) (r : Rom), s.active = true → s.rom = some r → 0x8000 ≤ r.size →
    exec (.ld8Rom0 a) s = .next (s.withOut
      { idleOut a with rspRdata := (Rom.byte r (a &&& 0x3FFF#16).toNat).setWidth 16 })

/-- R123: LD8 from ROM bank N reads the image through `romBankBase`, and writes no state. -/
def Obligations.LoadRomNReadsTheBankWindow : Prop :=
  ∀ (a : Addr) (s : State) (r : Rom), s.active = true → s.rom = some r →
    s.romBankBase.toNat + 0x4000 ≤ r.size →
    exec (.ld8RomN a) s = .next (s.withOut
      { idleOut a with
        rspRdata := (Rom.byte r (s.romBankBase.toNat + (a &&& 0x3FFF#16).toNat)).setWidth 16 })

/-- R124: LD8 from VRAM drives the read strobe and the offset and returns the collaborator's byte,
whatever it is; it never notifies. -/
def Obligations.LoadVramReturnsTheCollaboratorsByte : Prop :=
  ∀ (a : Addr) (s : State), s.active = true →
    ∃ o : BitVec 13, o.toNat = a.toNat % 0x2000 ∧
      exec (.ld8Vram a) s = .next (s.withOut
        { idleOut a with
          vramRe := true, vramOff := o, rspRdata := s.pins.vramRdata.setWidth 16
          calls := [.vramRead o] })

/-- R125: ST8 to VRAM writes the buffer and then notifies the offset, once, and writes no block state. -/
def Obligations.StoreVramWritesThenNotifies : Prop :=
  ∀ (a : Addr) (v : Byte) (s : State), s.active = true →
    ∃ o : BitVec 13, o.toNat = a.toNat % 0x2000 ∧
      exec (.st8Vram a v) s = .next (s.withOut
        { idleOut a with
          vramWe := true, vramOff := o, vramWdata := v, vramNotify := true
          calls := [.vramWrite o v, .vramNotify o] })

/-- R126, R127: external RAM is a placeholder: a load returns 0 and a store does nothing, each with
UNIMPL_EXTRAM. -/
def Obligations.ExternalRamIsAPlaceholder : Prop :=
  ∀ (a : Addr) (v : Byte) (s : State), s.active = true →
    exec (.ld8Extram a) s = .next (s.withOut
      { idleOut a with
        rspRdata := 0x0000#16, diagValid := true, diagCode := .unimplExtram, diagInfo := a }) ∧
    exec (.st8Extram a v) s = .next (s.withOut
      { idleOut a with diagValid := true, diagCode := .unimplExtram, diagInfo := a })

/-- R128: LD8 from working-RAM bank 0. -/
def Obligations.LoadWram0ReadsTheLowerBank : Prop :=
  ∀ (a : Addr) (s : State) (b : Block), s.active = true → s.wram = some b →
    exec (.ld8Wram0 a) s = .next (s.withOut
      { idleOut a with rspRdata := (b.read (a &&& 0x0FFF#16).toNat).setWidth 16 })

/-- R129: ST8 to working-RAM bank 0 writes that one byte and nothing else. -/
def Obligations.StoreWram0WritesOneByte : Prop :=
  ∀ (a : Addr) (v : Byte) (s : State) (b : Block), s.active = true → s.wram = some b →
    ∃ t, exec (.st8Wram0 a v) s = .next t ∧ s.StoresWram t a (a &&& 0x0FFF#16).toNat v

/-- R130: LD8 from working-RAM bank N, through `workingRamBankBase`. -/
def Obligations.LoadWramNReadsTheSwitchableBank : Prop :=
  ∀ (a : Addr) (s : State) (b : Block), s.active = true → s.wram = some b →
    s.workingRamBankBase.toNat ≤ 0x1000 →
    exec (.ld8WramN a) s = .next (s.withOut
      { idleOut a with
        rspRdata := (b.read (s.workingRamBankBase.toNat + (a &&& 0x0FFF#16).toNat)).setWidth 16 })

/-- R131: ST8 to working-RAM bank N writes that one byte and nothing else, and the byte is seen at every
address of the bank-N window and its echo with the same low twelve bits. -/
def Obligations.StoreWramNWritesOneByteSeenInTheEcho : Prop :=
  ∀ (a : Addr) (v : Byte) (s : State) (b : Block), s.active = true → s.wram = some b →
    s.workingRamBankBase.toNat ≤ 0x1000 →
    ∃ t, exec (.st8WramN a v) s = .next t ∧
      s.StoresWram t a (s.workingRamBankBase.toNat + (a &&& 0x0FFF#16).toNat) v ∧
      ∀ (a' : Addr) (i : Instr), i ∈ bankNLoads a' → a' &&& 0x0FFF#16 = a &&& 0x0FFF#16 →
        ∃ u, exec i t = .next u ∧ u.out.rspRdata = v.setWidth 16

/-- R132: LD8 from the echo region, each of its rows, is the load of bank N. -/
def Obligations.LoadEchoReadsTheSwitchableBank : Prop :=
  ∀ (a : Addr) (s : State) (b : Block) (i : Instr), s.active = true → s.wram = some b →
    s.workingRamBankBase.toNat ≤ 0x1000 → i ∈ echoLoads a →
    exec i s = .next (s.withOut
      { idleOut a with
        rspRdata := (b.read (s.workingRamBankBase.toNat + (a &&& 0x0FFF#16).toNat)).setWidth 16 })

/-- R133: ST8 to the echo region, each of its rows, is the store to bank N, and is seen there and in
the whole echo. -/
def Obligations.StoreEchoWritesTheSwitchableBank : Prop :=
  ∀ (a : Addr) (v : Byte) (s : State) (b : Block) (i : Instr), s.active = true → s.wram = some b →
    s.workingRamBankBase.toNat ≤ 0x1000 → i ∈ echoStores a v →
    ∃ t, exec i s = .next t ∧
      s.StoresWram t a (s.workingRamBankBase.toNat + (a &&& 0x0FFF#16).toNat) v ∧
      ∀ (a' : Addr) (j : Instr), j ∈ bankNLoads a' → a' &&& 0x0FFF#16 = a &&& 0x0FFF#16 →
        ∃ u, exec j t = .next u ∧ u.out.rspRdata = v.setWidth 16

/-- R134, R135: OAM is a placeholder: a load returns 0 and a store does nothing, each with UNIMPL_OAM,
and the video collaborator is not accessed. -/
def Obligations.OamIsAPlaceholder : Prop :=
  ∀ (a : Addr) (v : Byte) (s : State), s.active = true →
    (∀ i ∈ [Instr.ld8Oam0 a, .ld8Oam1 a], exec i s = .next (s.withOut
      { idleOut a with
        rspRdata := 0x0000#16, diagValid := true, diagCode := .unimplOam, diagInfo := a })) ∧
    (∀ i ∈ [Instr.st8Oam0 a v, .st8Oam1 a v], exec i s = .next (s.withOut
      { idleOut a with diagValid := true, diagCode := .unimplOam, diagInfo := a }))

/-- R136, R137: in the unusable region a load returns 0 and a store does nothing, with no diagnostic. -/
def Obligations.UnusableReadsZeroAndIgnoresStores : Prop :=
  ∀ (a : Addr) (v : Byte) (s : State), s.active = true →
    (∀ i ∈ [Instr.ld8Unusable0 a, .ld8Unusable1 a], exec i s = .next (s.withOut
      { idleOut a with rspRdata := 0x0000#16, diagValid := false })) ∧
    (∀ i ∈ [Instr.st8Unusable0 a v, .st8Unusable1 a v], exec i s = .next (s.withOut (idleOut a)))

/-- R138, R142: LD8 from the I/O registers and from the interrupt-enable register is delegated to the
I/O collaborator with id `a[7:0]` and IE_REG_ID, and returns its byte, whatever it is. -/
def Obligations.LoadIoAndIeAreDelegated : Prop :=
  ∀ (a : Addr) (s : State), s.active = true →
    (∃ id : Byte, id.toNat = a.toNat % 0x100 ∧
      exec (.ld8Io a) s = .next (s.withOut
        { idleOut a with
          ioRe := true, ioId := id, rspRdata := s.pins.ioRdata.setWidth 16
          calls := [.ioRead id] })) ∧
    exec (.ld8Ie a) s = .next (s.withOut
      { idleOut a with
        ioRe := true, ioId := s.config.ieRegId, rspRdata := s.pins.ioRdata.setWidth 16
        calls := [.ioRead s.config.ieRegId] })

/-- R139, R143: ST8 to the I/O registers and to the interrupt-enable register is delegated to the I/O
collaborator, and writes no block state. -/
def Obligations.StoreIoAndIeAreDelegated : Prop :=
  ∀ (a : Addr) (v : Byte) (s : State), s.active = true →
    (∃ id : Byte, id.toNat = a.toNat % 0x100 ∧
      exec (.st8Io a v) s = .next (s.withOut
        { idleOut a with ioWe := true, ioId := id, ioWdata := v, calls := [.ioWrite id v] })) ∧
    exec (.st8Ie a v) s = .next (s.withOut
      { idleOut a with
        ioWe := true, ioId := s.config.ieRegId, ioWdata := v
        calls := [.ioWrite s.config.ieRegId v] })

/-- R140: LD8 from high RAM, each of its rows, reads the byte at `a & 0x7F`, an index of 0x00 to 0x7E;
with nothing written since the RESET that byte is 0x00. -/
def Obligations.LoadHramReadsTheIndexedByte : Prop :=
  ∀ (a : Addr) (s : State) (i : Instr), s.active = true → i ∈ hramLoads a → WellFormed i →
    exec i s = .next (s.withOut
      { idleOut a with rspRdata := (s.hram.read (a &&& 0x7F#16).toNat).setWidth 16 }) ∧
    (a &&& 0x7F#16).toNat ≤ 0x7E ∧
    (s.hram = { cells := [], fill := .zero } → s.hram.read (a &&& 0x7F#16).toNat = 0x00#8)

/-- R141: ST8 to high RAM, each of its rows, writes the byte at `a & 0x7F` and nothing else. -/
def Obligations.StoreHramWritesOneByte : Prop :=
  ∀ (a : Addr) (v : Byte) (s : State) (i : Instr), s.active = true → i ∈ hramStores a v →
    WellFormed i → ∃ t, exec i s = .next t ∧ s.StoresHram t a (a &&& 0x7F#16).toNat v

/-- R144, R145: LD16 returns 0x0000 and ST16 does nothing, each with UNIMPL_WIDE, at every address; with
STRICT_UNIMPL both are refused instead. -/
def Obligations.WideAccessIsAPlaceholder : Prop :=
  ∀ (a : Addr) (d : Half) (s : State), s.active = true →
    (s.config.strictUnimpl = false →
      exec (.ld16 a) s = .next (s.withOut
        { idleOut a with
          rspRdata := 0x0000#16, diagValid := true, diagCode := .unimplWide, diagInfo := a }) ∧
      exec (.st16 a d) s = .next (s.withOut
        { idleOut a with diagValid := true, diagCode := .unimplWide, diagInfo := a })) ∧
    (s.config.strictUnimpl = true →
      exec (.ld16 a) s = .refused .strictUnimpl ∧ exec (.st16 a d) s = .refused .strictUnimpl)

/-- R70 and the "State: none written" of R122 to R145: a request that stores no block-owned byte and is
no controller write and no lifecycle operation leaves every register and every byte as it was. -/
def Obligations.LoadsAndDelegatedStoresWriteNoBlockState : Prop :=
  ∀ (i : Instr) (s t : State), exec i s = .next t → isLifecycle i = false →
    (∀ a v, i ∉ mbcStores a v) → (∀ a v, i ≠ .st8Wram0 a v) → (∀ a v, i ≠ .st8WramN a v) →
    (∀ a v, i ∉ echoStores a v) → (∀ a v, i ∉ hramStores a v) → s.SameBlock t

/-! ### The Bank Controller -/

/-- R97: the requested bank of each variant, as numbers. The zero test of Type1 looks at the 5-bit field
alone; `v[7]` is never used. -/
def Obligations.BankNumberAssembly : Prop :=
  ∀ (v : Byte) (cb : BitVec 7),
    (bankT1 v cb).toNat =
      (if v.toNat % 32 = 0 then 1 else v.toNat % 32) + 32 * (cb.toNat / 32) ∧
    (bankT3 v).toNat = (if v.toNat % 128 = 0 then 1 else v.toNat % 128) ∧
    (bankT5 v).toNat = v.toNat % 128

/-- R185: a switch beyond ROM_SIZE is rejected with BANK_OOR and changes nothing; any other is applied to
both bank registers, exactly. -/
def Obligations.TrySwitchRejectsOrApplies : Prop :=
  ∀ (a : Addr) (b : BitVec 7) (s : State),
    (b.toNat * 0x4000 + 0x4000 > s.romSize →
      trySwitch a b s = s.withOut
        { idleOut a with
          bsrCode := .rejected, bsrBank := b
          diagValid := true, diagCode := .bankOor, diagInfo := b.setWidth 16 }) ∧
    (b.toNat * 0x4000 + 0x4000 ≤ s.romSize →
      ∃ base : BitVec 21, base.toNat = b.toNat * 0x4000 ∧
        trySwitch a b s = (s.withBank b base).withOut
          { idleOut a with bsrCode := .applied, bsrBank := b })

/-- R190, R194, R198: every cartridge write of None, Type2 and Type4 is a NOOP with its diagnostic. -/
def Obligations.UnbankedVariantsIgnoreEveryWrite : Prop :=
  ∀ (a : Addr) (v : Byte) (s : State) (i : Instr), s.active = true → i ∈ mbcStores a v →
    (s.controllerType = .typeNone →
      exec i s = .next (s.withOut
        { idleOut a with
          bsrCode := .noop, diagValid := true, diagCode := .unimplRamen, diagInfo := a })) ∧
    (s.controllerType = .type2 ∨ s.controllerType = .type4 →
      exec i s = .next (s.withOut
        { idleOut a with
          bsrCode := .noop, diagValid := true, diagCode := .unimplMbc, diagInfo := a }))

/-- R191, R195, R199: slot 0 of Type1, Type3 and Type5 is the RAM-enable placeholder. -/
def Obligations.SlotZeroIsTheRamEnablePlaceholder : Prop :=
  ∀ (a : Addr) (v : Byte) (s : State), s.active = true → WellFormed (.st8MbcS0 a v) →
    s.controllerType = .type1 ∨ s.controllerType = .type3 ∨ s.controllerType = .type5 →
    exec (.st8MbcS0 a v) s = .next (s.withOut
      { idleOut a with
        bsrCode := .noop, diagValid := true, diagCode := .unimplRamen, diagInfo := a })

/-- R193, R197, R201: slots 2 and 3 of Type1, Type3 and Type5 are no-ops without a diagnostic. -/
def Obligations.SlotsTwoAndThreeAreNoOps : Prop :=
  ∀ (a : Addr) (v : Byte) (s : State) (i : Instr), s.active = true →
    i = .st8MbcS2 a v ∨ i = .st8MbcS3 a v → WellFormed i →
    s.controllerType = .type1 ∨ s.controllerType = .type3 ∨ s.controllerType = .type5 →
    exec i s = .next (s.withOut { idleOut a with bsrCode := .noop })

/-- R192: Type1, slot 1 tries the bank of `v[4:0]`, 0 forced to 1, with bits 6:5 of the previous bank
kept; `v[7:5]` is ignored. -/
def Obligations.Type1SlotOneSelectsFiveBits : Prop :=
  ∀ (a : Addr) (v : Byte) (s : State), s.active = true → s.controllerType = .type1 →
    WellFormed (.st8MbcS1 a v) →
    ∃ b : BitVec 7,
      b.toNat =
        (if v.toNat % 32 = 0 then 1 else v.toNat % 32) + 32 * (s.currentBank.toNat / 32) ∧
      exec (.st8MbcS1 a v) s = .next (trySwitch a b s)

/-- R196: Type3, slot 1 tries the bank of `v[6:0]`, 0 forced to 1, whatever bank is selected. -/
def Obligations.Type3SlotOneSelectsSevenBits : Prop :=
  ∀ (a : Addr) (v : Byte) (s : State), s.active = true → s.controllerType = .type3 →
    WellFormed (.st8MbcS1 a v) →
    ∃ b : BitVec 7, b.toNat = (if v.toNat % 128 = 0 then 1 else v.toNat % 128) ∧
      exec (.st8MbcS1 a v) s = .next (trySwitch a b s)

/-- R200: Type5, slot 1 tries the bank of `v[6:0]` as it is; bank 0 is always applied, and mirrors ROM
bank 0 into the window. -/
def Obligations.Type5SlotOneAcceptsBankZero : Prop :=
  ∀ (a : Addr) (v : Byte) (s : State), s.active = true → s.controllerType = .type5 →
    WellFormed (.st8MbcS1 a v) →
    (∃ b : BitVec 7, b.toNat = v.toNat % 128 ∧
      exec (.st8MbcS1 a v) s = .next (trySwitch a b s)) ∧
    (s.Inv → v.toNat % 128 = 0 →
      ∃ t, exec (.st8MbcS1 a v) s = .next t ∧ t.out.bsrCode = .applied ∧ t.currentBank = 0#7 ∧
        t.romBankBase = 0#21 ∧
        ∀ a' : Addr, ∃ u u', exec (.ld8RomN a') t = .next u ∧
          exec (.ld8Rom0 (a' &&& 0x3FFF#16)) t = .next u' ∧ u.out.rspRdata = u'.out.rspRdata)

/-- What 41_bank_controller.md R186 derives from R185: switching to the current bank changes nothing
and is applied; with 32768 bytes only banks 0 and 1 can be applied; bank 0 is always in range; bank `b`
is in range exactly from `(b + 1) * 0x4000` bytes on. -/
def Obligations.TrySwitchIdempotenceAndRange : Prop :=
  ∀ (a : Addr) (s : State), s.Inv → s.active = true →
    trySwitch a s.currentBank s = s.withOut
      { idleOut a with bsrCode := .applied, bsrBank := s.currentBank } ∧
    (∀ b : BitVec 7, s.romSize = 32768 →
      ((trySwitch a b s).out.bsrCode = .applied ↔ b = 0#7 ∨ b = 1#7)) ∧
    (trySwitch a 0#7 s).out.bsrCode = .applied ∧
    (∀ b : BitVec 7, (trySwitch a b s).out.bsrCode = .applied ↔ (b.toNat + 1) * 0x4000 ≤ s.romSize)

/-- What 41_bank_controller.md R202 and 30_encoding.md R97 derive from the decode: zero select bits give
bank 1 under Type1 and Type3 and bank 0 under Type5; None, Type2 and Type4 never leave bank 1; a Type1
session stays in banks 1 to 31 (R192's own inference); Type1 and Type3 never ask for bank 0. -/
def Obligations.BankZeroRulesByVariant : Prop :=
  (∀ (v : Byte) (cb : BitVec 7),
    bankT1 v cb ≠ 0#7 ∧ bankT3 v ≠ 0#7 ∧ (bankT5 v = 0#7 ↔ v.toNat % 128 = 0)) ∧
  (∀ (a : Addr) (v : Byte) (s t : State), s.Inv → s.active = true → WellFormed (.st8MbcS1 a v) →
    exec (.st8MbcS1 a v) s = .next t →
    (s.controllerType = .type1 → v.toNat % 32 = 0 → t.currentBank = 1#7) ∧
    (s.controllerType = .type1 → 1 ≤ t.currentBank.toNat ∧ t.currentBank.toNat ≤ 31) ∧
    (s.controllerType = .type3 → v.toNat % 128 = 0 → t.currentBank = 1#7) ∧
    (s.controllerType = .type5 → v.toNat % 128 = 0 → t.currentBank = 0#7) ∧
    (s.controllerType = .typeNone ∨ s.controllerType = .type2 ∨ s.controllerType = .type4 →
      t.currentBank = 1#7))

/-- R180: the header table, over RESET: the variant of every type byte, and UNKNOWN_CART_TYPE exactly for
the fallback values. -/
def Obligations.ResetSelectsTheVariantOfTheHeader : Prop :=
  ∀ (a : Addr) (s : State) (r : Rom), s.rom = some r → 0x8000 ≤ r.size → s.pins.allocOk = true →
    ∃ t, exec (.reset a) s = .next t ∧
      (let n := (Rom.byte r 0x147).toNat
       let listed (ct : Controller) : Prop :=
         t.controllerType = ct ∧ t.out.diagValid = false
       (n = 0x00 ∨ n = 0x08 ∨ n = 0x09 → listed .typeNone) ∧
       (0x01 ≤ n ∧ n ≤ 0x03 → listed .type1) ∧
       (n = 0x05 ∨ n = 0x06 → listed .type2) ∧
       (0x0F ≤ n ∧ n ≤ 0x13 → listed .type3) ∧
       (0x15 ≤ n ∧ n ≤ 0x17 → listed .type4) ∧
       (0x19 ≤ n ∧ n ≤ 0x1E → listed .type5) ∧
       (n = 0x04 ∨ n = 0x07 ∨ (0x0A ≤ n ∧ n ≤ 0x0E) ∨ n = 0x14 ∨ n = 0x18 ∨ 0x1F ≤ n →
         t.controllerType = .type5 ∧ t.out.diagValid = true ∧
         t.out.diagCode = .unknownCartType ∧ t.out.diagInfo.toNat = n))

/-- R24, R121: a controller write changes no register but the two bank registers, those two only
together and only when the switch is applied, and no byte of ROM, WRAM or HRAM. -/
def Obligations.ControllerWritesTouchOnlyTheBankRegisters : Prop :=
  ∀ (a : Addr) (v : Byte) (i : Instr) (s t : State), i ∈ mbcStores a v → exec i s = .next t →
    s.SameRom t ∧ s.SameWram t ∧ s.SameHram t ∧
    s.SameRegisters (t.withBank s.currentBank s.romBankBase) ∧
    (t.out.bsrCode = .applied →
      t.currentBank = t.out.bsrBank ∧ t.romBankBase.toNat = t.out.bsrBank.toNat * 0x4000) ∧
    (t.out.bsrCode ≠ .applied → s.SameRegisters t)

/-! ### The lifecycle operations -/

/-- INIT, 70_reset_and_hazards.md section 1: it zeroes the four bank registers, ends the session and
deallocates WRAM; the image is not touched, and every output is idle. The model's readings: HRAM reads
as before (log 20), the region select inside the outputs follows the address (log 10), and the image's
lock is left (log 12). -/
def Obligations.InitZeroesTheRegisterFile : Prop :=
  ∀ (a : Addr) (s : State), ∃ t, exec (.init a) s = .next t ∧
    t.controllerType = .typeNone ∧ t.currentBank = 0#7 ∧ t.romBankBase = 0#21 ∧
    t.workingRamBankBase = 0#13 ∧ t.active = false ∧ t.wram = none ∧
    t.rom = s.rom ∧ t.romLocked = s.romLocked ∧ s.SameHram t ∧ t.out = idleOut a ∧
    t.config = s.config ∧ t.pins = s.pins ∧ t.inputs = s.inputs

/-- RESET, 70_reset_and_hazards.md section 1: it is refused without an image of 0x8000 bytes; on a
failed allocation it leaves no session, no WRAM and the image as loaded, and reports FAIL; otherwise it
starts a session at bank 1 with the header's variant, freshly allocated WRAM and zeroed HRAM, and
reports OK. The model's readings: the region select of a failed RESET follows the address (log 10), and
a RESET that completes locks the image (log 12). -/
def Obligations.ResetFollowsItsProcedure : Prop :=
  ∀ (a : Addr) (s : State),
    ((s.rom = none ∨ s.romSize < 0x8000) → exec (.reset a) s = .refused .romTooSmall) ∧
    (∀ r, s.rom = some r → 0x8000 ≤ r.size → s.pins.allocOk = false →
      ∃ t, exec (.reset a) s = .next t ∧ t.active = false ∧ t.wram = none ∧ t.rom = s.rom ∧
        t.romLocked = true ∧ t.config = s.config ∧ t.pins = s.pins ∧ t.inputs = s.inputs ∧
        t.out = { idleOut a with
          resetStatus := .fail
          diagValid := true, diagCode := .resetAllocFail, diagInfo := 0x0000#16 }) ∧
    (∀ r, s.rom = some r → 0x8000 ≤ r.size → s.pins.allocOk = true →
      ∃ t, exec (.reset a) s = .next t ∧
        t.romBankBase = 0x4000#21 ∧ t.currentBank = 1#7 ∧
        t.controllerType = variantOf (Rom.byte r 0x147) ∧
        t.workingRamBankBase = s.config.wramBankNOffset ∧
        (∀ o, o < 0x2000 → ∃ b : Byte, t.readWram o = .ok b) ∧
        (∀ k, k < 127 → t.readHram k = .ok 0x00#8) ∧
        t.active = true ∧ t.rom = s.rom ∧ t.romLocked = true ∧ t.config = s.config ∧ t.pins = s.pins ∧
        t.inputs = s.inputs ∧
        t.out.resetStatus = .ok ∧ t.out.calls = [] ∧ t.out.rspRdata = 0x0000#16 ∧
        t.out.bsrCode = .none ∧
        (if isFallback (Rom.byte r 0x147) then
          t.out.diagValid = true ∧ t.out.diagCode = .unknownCartType ∧
            t.out.diagInfo = (Rom.byte r 0x147).setWidth 16
        else t.out.diagValid = false))

/-- What 70_reset_and_hazards.md R253 derives from R252: what RESET does depends on nothing of the
session before it: two states that agree on the image, the parameters, the signals and the number of
draws made give the same outcome. -/
def Obligations.ResetForgetsTheOldSession : Prop :=
  ∀ (a : Addr) (s s' : State), s.config = s'.config → s.rom = s'.rom → s.pins = s'.pins →
    s.inputs = s'.inputs → s.draws = s'.draws → exec (.reset a) s = exec (.reset a) s'

/-- DEINIT, 70_reset_and_hazards.md section 1: it ends the session and releases WRAM and the image; the
registers and HRAM are unspecified, and nothing is said of them. The model's readings: the image's lock
is cleared, so that the loader may supply an image again (log 12), and the region select inside the
outputs follows the address (log 10). -/
def Obligations.DeinitReleasesTheStorage : Prop :=
  ∀ (a : Addr) (s : State), ∃ t, exec (.deinit a) s = .next t ∧
    t.wram = none ∧ t.rom = none ∧ t.romLocked = false ∧ t.active = false ∧ t.out = idleOut a ∧
    t.config = s.config ∧ t.pins = s.pins ∧ t.inputs = s.inputs

/-- R30, R120, R254: while `active = 0` every load and store is refused; and INIT, DEINIT and a failed
RESET leave `active = 0`. -/
def Obligations.NoSessionRefusesEveryAccess : Prop :=
  (∀ (i : Instr) (s : State), s.active = false → isLifecycle i = false →
    exec i s = .refused .noSession) ∧
  (∀ (i : Instr) (s t : State), isLifecycle i = true → exec i s = .next t →
    t.out.resetStatus ≠ .ok → t.active = false)

/-! ### The whole block -/

/-- The state after reset meets the invariant. -/
def Obligations.InvariantHoldsAtReset : Prop := State.reset.Inv

/-- R22, R23, R31: from every state that meets the invariant, a step gives a state that meets it. -/
def Obligations.InvariantIsKeptByEveryStep : Prop :=
  ∀ s t : State, s.Inv → step s = .next t → t.Inv

/-- R223: from a state that meets the invariant no step faults, whatever is presented. -/
def Obligations.NoStepFaults : Prop :=
  ∀ (s : State) (f : Fault), s.Inv → step s ≠ .fault f

/-- R223: in a session every well-formed request completes, with STRICT_UNIMPL off. -/
def Obligations.EveryAdmittedRequestCompletes : Prop :=
  ∀ (i : Instr) (s : State), s.Inv → s.active = true → s.config.strictUnimpl = false →
    WellFormed i → ∃ t, exec i s = .next t

/-- R24, R20, R23, R26: the write-enable decode. Outside the lifecycle operations no request writes
`controllerType`, `workingRamBankBase`, the session bit, the image or a parameter, and only an applied
switch of a slot-1 store writes the bank registers. -/
def Obligations.OnlyTheListedRequestsWriteRegisters : Prop :=
  ∀ (i : Instr) (s t : State), WellFormed i → isLifecycle i = false → exec i s = .next t →
    t.controllerType = s.controllerType ∧ t.workingRamBankBase = s.workingRamBankBase ∧
    t.active = s.active ∧ t.rom = s.rom ∧ t.config = s.config ∧
    (t.currentBank ≠ s.currentBank ∨ t.romBankBase ≠ s.romBankBase →
      t.out.bsrCode = .applied ∧ ∃ a v, i = .st8MbcS1 a v)

/-- R26, R261 (with the model's lock, log 12): once a RESET has sampled the image, a step leaves it and
the lock as they are, unless the cycle presents the DEINIT that releases it; and no step changes a
parameter. -/
def Obligations.TheImageIsConstantUntilDeinit : Prop :=
  ∀ s t : State, step s = .next t →
    t.config = s.config ∧
    (s.romLocked = true →
      (t.rom = s.rom ∧ t.romLocked = true) ∨
      (t.rom = none ∧ t.romLocked = false ∧ t.active = false ∧
        ∃ c l a, s.inputs = .cycle c :: l ∧ c.reqValid = true ∧ decode c.word = .ok (.deinit a)))

/-- R221, R225: no state and no output depends on what an earlier request reported. -/
def Obligations.OutputsInfluenceNothing : Prop :=
  ∀ (i : Instr) (s : State) (o : Outputs), exec i (s.withOut o) = exec i s

/-- R43, R44, R46: in every request that completes, the strobes are those of the calls made, a VRAM store
is delivered as its write and then its notify, and a diagnostic code stands exactly when
`diag_valid` does. -/
def Obligations.StrobesAgreeWithTheCalls : Prop :=
  ∀ (i : Instr) (s t : State), exec i s = .next t →
    (t.out.vramRe = true → t.out.calls = [.vramRead t.out.vramOff]) ∧
    (t.out.vramWe = true →
      t.out.calls = [.vramWrite t.out.vramOff t.out.vramWdata, .vramNotify t.out.vramOff]) ∧
    (t.out.vramNotify = t.out.vramWe) ∧
    (t.out.ioRe = true → t.out.calls = [.ioRead t.out.ioId]) ∧
    (t.out.ioWe = true → t.out.calls = [.ioWrite t.out.ioId t.out.ioWdata]) ∧
    (t.out.vramRe = false → t.out.vramWe = false → t.out.ioRe = false → t.out.ioWe = false →
      t.out.calls = []) ∧
    (t.out.diagValid = true ↔ t.out.diagCode ≠ .none) ∧
    (t.out.diagValid = false → t.out.diagInfo = 0#16)

/-- R40, R120: when a cycle presents a request whose word decodes to `i`, the step is the meaning of `i`,
with the cycle's signals on the pins and the cycle taken from the inputs. -/
def Obligations.StepRunsTheDecodedRequest : Prop :=
  ∀ (s : State) (c : Cycle) (l : List Input) (i : Instr), s.inputs = .cycle c :: l →
    c.reqValid = true → decode c.word = .ok i →
    step s = exec i { s with inputs := l, pins := c.pins }

/-- A request presented by `withFetchWord` is the one the next step runs, and it leaves the inputs as
they were (log 1). -/
def Obligations.FetchedWordRunsNext : Prop :=
  ∀ (i : Instr) (s : State) (nbits : Nat), WellFormed i →
    step (s.withFetchWord nbits (encode i).toNat) = exec i s

/-- R101, R232: an idle cycle, or none at all, changes no state and no output, but that the diagnostic
of the request before it is over (R225; how the two rules go together is the model's reading, log 4).
R48, R261 (with the model's lock, log 12): the loader supplies an image before a RESET has sampled one,
and is refused after. -/
def Obligations.IdleCyclesAndTheLoader : Prop :=
  ∀ (s : State),
    let o : Outputs := { s.out with diagValid := false, diagCode := .none, diagInfo := 0#16 }
    (s.inputs = [] → step s = .next { s with out := o }) ∧
    (∀ c l, s.inputs = .cycle c :: l → c.reqValid = false →
      step s = .next { s with inputs := l, out := o }) ∧
    (∀ r l, s.inputs = .loadImage r :: l → s.romLocked = false →
      step s = .next { s with inputs := l, rom := some r, out := o }) ∧
    (∀ r l, s.inputs = .loadImage r :: l → s.romLocked = true → step s = .refused .imageLocked)

/-- R258: INIT, the loader's image, and a RESET whose allocation succeeds lead from power-up to the state
after reset (for the image and the parameters that state has, log 1 and 2). -/
def Obligations.BootFromPowerUpReachesReset : Prop :=
  ∀ (p q : Pins) (o : Outputs),
    Host.Core.run Sys2Proof.core 3
      (State.powerUp { wramBankNOffset := 0x1000#13, ieRegId := 0xFF#8, strictUnimpl := false } p o
        [ .cycle { reqValid := true, word := 0x400000000#35, pins := q }
        , .loadImage { size := 0x8000, cells := [] }
        , .cycle { reqValid := true, word := 0x500000000#35, pins := State.reset.pins } ])
      = .next State.reset

/-- R72, R123: a bank select is seen by the very next load from ROMN: with the switch applied it reads
the new bank, with the switch rejected the bank of before. -/
def Obligations.BankSwitchIsSeenByTheNextLoad : Prop :=
  ∀ (s : State) (c d : Cycle) (l : List Input) (a a' : Addr) (v : Byte) (r : Rom),
    s.Inv → s.active = true → s.rom = some r → s.inputs = .cycle c :: .cycle d :: l →
    c.reqValid = true → d.reqValid = true →
    decode c.word = .ok (.st8MbcS1 a v) → decode d.word = .ok (.ld8RomN a') →
    ∃ t u, step s = .next t ∧ step t = .next u ∧
      u.out.rspRdata =
        (Rom.byte r (t.currentBank.toNat * 0x4000 + a'.toNat % 0x4000)).setWidth 16 ∧
      (t.out.bsrCode = .applied → t.currentBank = t.out.bsrBank) ∧
      (t.out.bsrCode ≠ .applied → t.currentBank = s.currentBank)

/-- The aliases that 20_memory.md R66 derives from R65. Echo and bank N read the same byte at equal low
twelve bits; with `romBankBase = 0` the window mirrors ROM bank 0; with the bank-N base 0, bank N and
the echo mirror WRAM bank 0. -/
def Obligations.AddressAliasesReadTheSameByte : Prop :=
  ∀ (a a' : Addr) (s : State), s.Inv → s.active = true →
    a &&& 0x0FFF#16 = a' &&& 0x0FFF#16 →
    (∀ i ∈ bankNLoads a, ∀ j ∈ bankNLoads a', ∃ t u, exec i s = .next t ∧ exec j s = .next u ∧
      t.out.rspRdata = u.out.rspRdata) ∧
    (s.workingRamBankBase = 0#13 → ∀ i ∈ bankNLoads a, ∃ t u, exec i s = .next t ∧
      exec (.ld8Wram0 a') s = .next u ∧ t.out.rspRdata = u.out.rspRdata) ∧
    (s.romBankBase = 0#21 → ∃ t u, exec (.ld8RomN a) s = .next t ∧
      exec (.ld8Rom0 (a &&& 0x3FFF#16)) s = .next u ∧ t.out.rspRdata = u.out.rspRdata)

/-- R71: a load of a block-owned byte in the request after a store to it returns the value stored. The
byte of working RAM is named by its offset, so a store and a load through different windows are covered
wherever the windows overlap. -/
def Obligations.StoresAreSeenByTheNextRequest : Prop :=
  ∀ (s : State) (c d : Cycle) (l : List Input) (i j : Instr) (a a' : Addr) (v : Byte),
    s.Inv → s.active = true → s.inputs = .cycle c :: .cycle d :: l →
    c.reqValid = true → d.reqValid = true → decode c.word = .ok i → decode d.word = .ok j →
    ((∃ p : Nat,
        ((i = .st8Wram0 a v ∧ p = wram0Offset a) ∨
          ((i = .st8WramN a v ∨ i ∈ echoStores a v) ∧ p = wramNOffset s a)) ∧
        ((j = .ld8Wram0 a' ∧ p = wram0Offset a') ∨
          (j ∈ bankNLoads a' ∧ p = wramNOffset s a'))) ∨
      (i ∈ hramStores a v ∧ j ∈ hramLoads a' ∧ WellFormed i ∧ hramIndex a = hramIndex a')) →
    ∃ u, Host.Core.run Sys2Proof.core 2 s = .next u ∧ u.out.rspRdata = v.setWidth 16

/-- R225, R46 (log 4): a diagnostic is visible only in the cycle of the request that raised it. If it
stands after a step, that step's cycle presented a request, and the request run without the outputs of
before reports the same; no earlier diagnostic is queued. -/
def Obligations.DiagnosticIsVisibleOnlyInItsRequestsCycle : Prop :=
  ∀ s t : State, step s = .next t →
    (t.out.diagValid = true ∨ t.out.diagCode ≠ .none ∨ t.out.diagInfo ≠ 0#16) →
    ∃ c l i, s.inputs = .cycle c :: l ∧ c.reqValid = true ∧ decode c.word = .ok i ∧
      ∀ o : Outputs, exec i { s with inputs := l, pins := c.pins, out := o } = .next t
end

