-- ==== Sys2Proof/Laws/Decode.lean ====
section
/-! SUPPORT. The laws of the request word: its fields, its masks, and that the rows of the opcode table do not overlap. -/

namespace Sys2Proof

/-- Masking with the bits from `k` up keeps the value down to a multiple of `2 ^ k`: every mask of the
opcode table has this form. -/
theorem and_highMask {n k x : Nat} (hk : k ≤ n) (hx : x < 2 ^ n) :
    x &&& (2 ^ n - 2 ^ k) = x / 2 ^ k * 2 ^ k := by
  have hmask : 2 ^ n - 2 ^ k = (2 ^ (n - k) - 1) * 2 ^ k := by
    rw [Nat.sub_mul, ← Nat.pow_add, Nat.sub_add_cancel hk, Nat.one_mul]
  apply Nat.eq_of_testBit_eq
  intro i
  rw [Nat.testBit_and, hmask, Nat.testBit_mul_two_pow, Nat.testBit_mul_two_pow,
    Nat.testBit_two_pow_sub_one, Nat.testBit_div_two_pow]
  by_cases hki : k ≤ i
  · by_cases hn : i < n
    · have : i - k < n - k := by omega
      simp [hki, this]
    · have : x.testBit i = false :=
        Nat.testBit_lt_two_pow (hx.trans_le (Nat.pow_le_pow_right (by norm_num) (by omega)))
      simp [hki, this]
  · simp [hki]

/-- R91: the word is `(op << 32) | (addr << 16) | wdata`. -/
theorem requestWord_toNat (op : BitVec 3) (a : Addr) (d : Half) :
    (requestWord op a d).toNat = op.toNat * 2 ^ 32 + a.toNat * 2 ^ 16 + d.toNat := by
  have h : (requestWord op a d).toNat = (op.toNat <<< 16 ||| a.toNat) <<< 16 ||| d.toNat := by
    simp only [requestWord, BitVec.toNat_append]
  rw [h, ← Nat.shiftLeft_add_eq_or_of_lt d.isLt, ← Nat.shiftLeft_add_eq_or_of_lt a.isLt,
    Nat.shiftLeft_eq, Nat.shiftLeft_eq]
  ring

/-! The fields of a word, as numbers. -/

theorem reqOp_toNat (w : RequestWord) : (reqOp w).toNat = w.toNat / 2 ^ 32 := by
  have := w.isLt
  simp only [reqOp, BitVec.extractLsb'_toNat, Nat.shiftRight_eq_div_pow]; omega
theorem reqAddr_toNat (w : RequestWord) : (reqAddr w).toNat = w.toNat / 2 ^ 16 % 2 ^ 16 := by
  simp only [reqAddr, BitVec.extractLsb'_toNat, Nat.shiftRight_eq_div_pow]
theorem reqWdata_toNat (w : RequestWord) : (reqWdata w).toNat = w.toNat % 2 ^ 16 := by
  simp only [reqWdata, BitVec.extractLsb'_toNat, Nat.shiftRight_eq_div_pow, pow_zero, Nat.div_one]
theorem storeByte_toNat (d : Half) : (storeByte d).toNat = d.toNat % 2 ^ 8 := by
  simp only [storeByte, BitVec.extractLsb'_toNat, Nat.shiftRight_eq_div_pow, pow_zero, Nat.div_one]

@[simp] theorem reqOp_requestWord (op : BitVec 3) (a : Addr) (d : Half) :
    reqOp (requestWord op a d) = op := by
  have := a.isLt; have := d.isLt
  apply BitVec.eq_of_toNat_eq; rw [reqOp_toNat, requestWord_toNat]; omega
@[simp] theorem reqAddr_requestWord (op : BitVec 3) (a : Addr) (d : Half) :
    reqAddr (requestWord op a d) = a := by
  have := a.isLt; have := d.isLt
  apply BitVec.eq_of_toNat_eq; rw [reqAddr_toNat, requestWord_toNat]; omega
@[simp] theorem reqWdata_requestWord (op : BitVec 3) (a : Addr) (d : Half) :
    reqWdata (requestWord op a d) = d := by
  have := a.isLt; have := d.isLt
  apply BitVec.eq_of_toNat_eq; rw [reqWdata_toNat, requestWord_toNat]; omega
@[simp] theorem storeByte_setWidth (v : Byte) : storeByte (v.setWidth 16) = v := by
  have := v.isLt
  apply BitVec.eq_of_toNat_eq; rw [storeByte_toNat, BitVec.toNat_setWidth]; omega

/-- A row whose mask keeps the bits from `k` up selects the words that agree with its pattern there. -/
theorem Row.selects_iff {r : Row} {k : Nat} (hk : k ≤ 35) (hm : r.mask.toNat = 2 ^ 35 - 2 ^ k)
    (w : RequestWord) : r.selects w = true ↔ w.toNat / 2 ^ k * 2 ^ k = r.pattern.toNat := by
  rw [Row.selects, beq_iff_eq, ← BitVec.toNat_inj, BitVec.toNat_and, hm, and_highMask hk w.isLt]

/-- No word can select both rows: they differ in a bit that both masks keep. -/
def Row.disjoint (r r' : Row) : Bool :=
  (r.pattern ^^^ r'.pattern) &&& (r.mask &&& r'.mask) != 0#35

/-- R91: no two rows of the table overlap. -/
theorem opcodeRows_disjoint :
    opcodeRows.Pairwise (fun r r' => Row.disjoint r r' = true) := by decide

theorem Row.not_selects_both {r r' : Row} {w : RequestWord} (hd : Row.disjoint r r' = true)
    (h : r.selects w = true) (h' : r'.selects w = true) : False := by
  simp only [Row.selects, beq_iff_eq] at h h'
  simp only [Row.disjoint, bne_iff_ne, ne_eq, ← h, ← h'] at hd
  apply hd
  ext i hi
  simp only [BitVec.getElem_and, BitVec.getElem_xor, BitVec.getElem_zero]
  cases w[i] <;> cases r.mask[i] <;> cases r'.mask[i] <;> rfl

/-- Among disjoint rows, the row a word selects is the one found. -/
theorem find_of_pairwise {rs : List Row} {r : Row} {w : RequestWord}
    (hp : rs.Pairwise (fun r r' => Row.disjoint r r' = true)) (hm : r ∈ rs)
    (hs : r.selects w = true) : rs.find? (fun r => r.selects w) = some r := by
  induction rs with
  | nil => simp at hm
  | cons x rs ih =>
    rw [List.pairwise_cons] at hp
    rcases List.mem_cons.1 hm with rfl | hm
    · simp [hs]
    · have : x.selects w = false := by
        by_contra hx
        exact Row.not_selects_both (hp.1 r hm) (by simpa using hx) hs
      simp [this, ih hp.2 hm]

/-- Decoding answers with the row the word selects. -/
theorem decode_of_selects {r : Row} {w : RequestWord} (hm : r ∈ opcodeRows) (hs : r.selects w = true) :
    decode w = .ok (r.build (reqAddr w) (reqWdata w)) := by
  simp [decode, find_of_pairwise opcodeRows_disjoint hm hs]

end Sys2Proof
end

