-- ==== Sys2Proof/Laws/Memory.lean ====
section
/-! SUPPORT. The laws of the block's memories: a read after a write to the same offset gives the value written, a write leaves every other offset alone, and every operation keeps the canonical form. -/

namespace Sys2Proof.Machine

/-! ### Sparse lists -/

theorem Memory.find_set_same (m : Memory) (o : Nat) (v : Byte) :
    Memory.find (Memory.set m o v) o = some v := by
  induction m with
  | nil => simp [Memory.set, Memory.find]
  | cons c m ih =>
    obtain ⟨k, w⟩ := c
    simp only [Memory.set]
    split
    · simp [Memory.find]
    · split
      · simp [Memory.find]
      · next h1 h2 => simp [Memory.find, Ne.symm h2, ih]

theorem Memory.find_set_other (m : Memory) {o p : Nat} (v : Byte) (hp : p ≠ o) :
    Memory.find (Memory.set m o v) p = Memory.find m p := by
  induction m with
  | nil => simp [Memory.set, Memory.find, Ne.symm hp]
  | cons c m ih =>
    obtain ⟨k, w⟩ := c
    simp only [Memory.set]
    split
    · simp [Memory.find, Ne.symm hp]
    · split
      · next h1 h2 => subst h2; simp [Memory.find, Ne.symm hp]
      · simp [Memory.find, ih]

theorem Memory.find_erase_same (m : Memory) (o : Nat) :
    Memory.find (Memory.erase m o) o = none := by
  induction m with
  | nil => rfl
  | cons c m ih =>
    obtain ⟨k, w⟩ := c
    simp only [Memory.erase, List.filter_cons] at ih ⊢
    split
    · next h => simp only [bne_iff_ne] at h; simpa [Memory.find, h] using ih
    · exact ih

theorem Memory.find_erase_other (m : Memory) {o p : Nat} (hp : p ≠ o) :
    Memory.find (Memory.erase m o) p = Memory.find m p := by
  induction m with
  | nil => rfl
  | cons c m ih =>
    obtain ⟨k, w⟩ := c
    simp only [Memory.erase, List.filter_cons] at ih ⊢
    split
    · simp [Memory.find, ih]
    · next h =>
      simp only [bne_iff_ne, ne_eq, not_not] at h
      subst h
      simpa [Memory.find, Ne.symm hp] using ih

/-! ### The canonical form is kept -/

theorem Memory.risingFrom_mono {m : Memory} {lo hi : Nat} (h : Memory.risingFrom hi m = true)
    (hle : lo ≤ hi) : Memory.risingFrom lo m = true := by
  cases m with
  | nil => rfl
  | cons c m =>
    simp only [Memory.risingFrom, Bool.and_eq_true, decide_eq_true_eq] at h ⊢
    exact ⟨hle.trans h.1, h.2⟩

theorem Memory.risingFrom_set {m : Memory} {lo o : Nat} (v : Byte)
    (h : Memory.risingFrom lo m = true) (ho : lo ≤ o) :
    Memory.risingFrom lo (Memory.set m o v) = true := by
  induction m generalizing lo with
  | nil => simp [Memory.set, Memory.risingFrom, ho]
  | cons c m ih =>
    obtain ⟨k, w⟩ := c
    simp only [Memory.risingFrom, Bool.and_eq_true, decide_eq_true_eq] at h
    simp only [Memory.set]
    split
    · next hlt => simp [Memory.risingFrom, ho, h.2]; omega
    · split
      · next heq => subst heq; simp [Memory.risingFrom, ho, h.2]
      · next h1 h2 =>
        simp only [Memory.risingFrom, Bool.and_eq_true, decide_eq_true_eq]
        exact ⟨h.1, ih h.2 (by omega)⟩

theorem Memory.risingFrom_erase {m : Memory} {lo : Nat} (o : Nat)
    (h : Memory.risingFrom lo m = true) : Memory.risingFrom lo (Memory.erase m o) = true := by
  induction m generalizing lo with
  | nil => rfl
  | cons c m ih =>
    obtain ⟨k, w⟩ := c
    simp only [Memory.risingFrom, Bool.and_eq_true, decide_eq_true_eq] at h
    simp only [Memory.erase, List.filter_cons] at ih ⊢
    split
    · simp only [Memory.risingFrom, Bool.and_eq_true, decide_eq_true_eq]
      exact ⟨h.1, ih h.2⟩
    · exact Memory.risingFrom_mono (ih h.2) (by omega)

theorem Memory.mem_set {m : Memory} {o : Nat} {v : Byte} {c : Host.Cell}
    (h : c ∈ Memory.set m o v) : c = (o, v) ∨ c ∈ m := by
  induction m with
  | nil => simpa [Memory.set] using h
  | cons d m ih =>
    obtain ⟨k, w⟩ := d
    simp only [Memory.set] at h
    split at h
    · simpa using h
    · split at h
      · rcases List.mem_cons.1 h with h | h
        · exact .inl h
        · exact .inr (List.mem_cons_of_mem _ h)
      · rcases List.mem_cons.1 h with h | h
        · exact .inr (by simp [h])
        · exact (ih h).imp_right (List.mem_cons_of_mem _)

theorem Memory.wf_set {u : Option Byte} {n : Nat} {m : Memory} {o : Nat} {v : Byte}
    (h : Memory.wf u n m = true) (ho : o < n) (hv : some v ≠ u) :
    Memory.wf u n (Memory.set m o v) = true := by
  simp only [Memory.wf, Bool.and_eq_true, List.all_eq_true, decide_eq_true_eq, bne_iff_ne] at h ⊢
  refine ⟨Memory.risingFrom_set v h.1 (Nat.zero_le _), fun c hc => ?_⟩
  rcases Memory.mem_set hc with rfl | hc
  · exact ⟨ho, hv⟩
  · exact h.2 c hc

theorem Memory.wf_erase {u : Option Byte} {n : Nat} {m : Memory} (o : Nat)
    (h : Memory.wf u n m = true) : Memory.wf u n (Memory.erase m o) = true := by
  simp only [Memory.wf, Bool.and_eq_true, List.all_eq_true] at h ⊢
  exact ⟨Memory.risingFrom_erase o h.1, fun c hc => h.2 c (List.mem_filter.1 hc).1⟩

theorem Memory.find_set (m : Memory) (o p : Nat) (v : Byte) :
    Memory.find (Memory.set m o v) p = if p = o then some v else Memory.find m p := by
  split
  · next h => subst h; exact Memory.find_set_same m p v
  · next h => exact Memory.find_set_other m v h

/-! ### Block-owned memories -/

@[simp] theorem Block.write_fill (b : Block) (o : Nat) (v : Byte) : (b.write o v).fill = b.fill := by
  unfold Block.write; split <;> rfl

@[simp] theorem Block.read_write_same (b : Block) (o : Nat) (v : Byte) : (b.write o v).read o = v := by
  obtain ⟨m, f⟩ := b
  cases f with
  | zero =>
    by_cases hv : v = 0#8
    · subst hv; simp [Block.write, Block.read, Fill.known, Fill.byte, Memory.find_erase_same]
    · simp [Block.write, Block.read, Fill.known, Ne.symm hv, Memory.find_set_same]
  | free n => simp [Block.write, Block.read, Fill.known, Memory.find_set_same]

theorem Block.read_write_other (b : Block) {o p : Nat} (v : Byte) (hp : p ≠ o) :
    (b.write o v).read p = b.read p := by
  unfold Block.write Block.read
  split
  · simp [Memory.find_erase_other _ hp]
  · simp [Memory.find_set_other _ v hp]

theorem Block.wf_write {n : Nat} {b : Block} {o : Nat} (v : Byte) (h : Block.wf n b = true)
    (ho : o < n) : Block.wf n (b.write o v) = true := by
  unfold Block.wf at h ⊢
  rw [Block.write_fill]
  unfold Block.write
  split
  · exact Memory.wf_erase o h
  · next hk => exact Memory.wf_set h ho (Ne.symm hk)

theorem Block.wf_fresh (n : Nat) (f : Fill) : Block.wf n { cells := [], fill := f } = true := rfl

end Sys2Proof.Machine
end

