-- ==== Sys2Proof/Laws/State.lean ====
section
/-! SUPPORT. One lemma per field per named update of State, each true by rfl, so that no proof unfolds a record update. -/

namespace Sys2Proof.Machine

variable (s : State)

/-! ### withOut -/

section
variable (o : Outputs)

@[simp] theorem State.withOut_config : (s.withOut o).config = s.config := rfl
@[simp] theorem State.withOut_controllerType : (s.withOut o).controllerType = s.controllerType := rfl
@[simp] theorem State.withOut_currentBank : (s.withOut o).currentBank = s.currentBank := rfl
@[simp] theorem State.withOut_romBankBase : (s.withOut o).romBankBase = s.romBankBase := rfl
@[simp] theorem State.withOut_workingRamBankBase : (s.withOut o).workingRamBankBase = s.workingRamBankBase := rfl
@[simp] theorem State.withOut_active : (s.withOut o).active = s.active := rfl
@[simp] theorem State.withOut_rom : (s.withOut o).rom = s.rom := rfl
@[simp] theorem State.withOut_romLocked : (s.withOut o).romLocked = s.romLocked := rfl
@[simp] theorem State.withOut_wram : (s.withOut o).wram = s.wram := rfl
@[simp] theorem State.withOut_hram : (s.withOut o).hram = s.hram := rfl
@[simp] theorem State.withOut_pins : (s.withOut o).pins = s.pins := rfl
@[simp] theorem State.withOut_inputs : (s.withOut o).inputs = s.inputs := rfl
@[simp] theorem State.withOut_out : (s.withOut o).out = o := rfl
@[simp] theorem State.withOut_draws : (s.withOut o).draws = s.draws := rfl

end

/-! ### withBank -/

section
variable (b : BitVec 7) (base : BitVec 21)

@[simp] theorem State.withBank_config : (s.withBank b base).config = s.config := rfl
@[simp] theorem State.withBank_controllerType : (s.withBank b base).controllerType = s.controllerType := rfl
@[simp] theorem State.withBank_currentBank : (s.withBank b base).currentBank = b := rfl
@[simp] theorem State.withBank_romBankBase : (s.withBank b base).romBankBase = base := rfl
@[simp] theorem State.withBank_workingRamBankBase : (s.withBank b base).workingRamBankBase = s.workingRamBankBase := rfl
@[simp] theorem State.withBank_active : (s.withBank b base).active = s.active := rfl
@[simp] theorem State.withBank_rom : (s.withBank b base).rom = s.rom := rfl
@[simp] theorem State.withBank_romLocked : (s.withBank b base).romLocked = s.romLocked := rfl
@[simp] theorem State.withBank_wram : (s.withBank b base).wram = s.wram := rfl
@[simp] theorem State.withBank_hram : (s.withBank b base).hram = s.hram := rfl
@[simp] theorem State.withBank_pins : (s.withBank b base).pins = s.pins := rfl
@[simp] theorem State.withBank_inputs : (s.withBank b base).inputs = s.inputs := rfl
@[simp] theorem State.withBank_out : (s.withBank b base).out = s.out := rfl
@[simp] theorem State.withBank_draws : (s.withBank b base).draws = s.draws := rfl

end

/-! ### withWram -/

section
variable (w : Option Block)

@[simp] theorem State.withWram_config : (s.withWram w).config = s.config := rfl
@[simp] theorem State.withWram_controllerType : (s.withWram w).controllerType = s.controllerType := rfl
@[simp] theorem State.withWram_currentBank : (s.withWram w).currentBank = s.currentBank := rfl
@[simp] theorem State.withWram_romBankBase : (s.withWram w).romBankBase = s.romBankBase := rfl
@[simp] theorem State.withWram_workingRamBankBase : (s.withWram w).workingRamBankBase = s.workingRamBankBase := rfl
@[simp] theorem State.withWram_active : (s.withWram w).active = s.active := rfl
@[simp] theorem State.withWram_rom : (s.withWram w).rom = s.rom := rfl
@[simp] theorem State.withWram_romLocked : (s.withWram w).romLocked = s.romLocked := rfl
@[simp] theorem State.withWram_wram : (s.withWram w).wram = w := rfl
@[simp] theorem State.withWram_hram : (s.withWram w).hram = s.hram := rfl
@[simp] theorem State.withWram_pins : (s.withWram w).pins = s.pins := rfl
@[simp] theorem State.withWram_inputs : (s.withWram w).inputs = s.inputs := rfl
@[simp] theorem State.withWram_out : (s.withWram w).out = s.out := rfl
@[simp] theorem State.withWram_draws : (s.withWram w).draws = s.draws := rfl

end

/-! ### withHram -/

section
variable (h : Block)

@[simp] theorem State.withHram_config : (s.withHram h).config = s.config := rfl
@[simp] theorem State.withHram_controllerType : (s.withHram h).controllerType = s.controllerType := rfl
@[simp] theorem State.withHram_currentBank : (s.withHram h).currentBank = s.currentBank := rfl
@[simp] theorem State.withHram_romBankBase : (s.withHram h).romBankBase = s.romBankBase := rfl
@[simp] theorem State.withHram_workingRamBankBase : (s.withHram h).workingRamBankBase = s.workingRamBankBase := rfl
@[simp] theorem State.withHram_active : (s.withHram h).active = s.active := rfl
@[simp] theorem State.withHram_rom : (s.withHram h).rom = s.rom := rfl
@[simp] theorem State.withHram_romLocked : (s.withHram h).romLocked = s.romLocked := rfl
@[simp] theorem State.withHram_wram : (s.withHram h).wram = s.wram := rfl
@[simp] theorem State.withHram_hram : (s.withHram h).hram = h := rfl
@[simp] theorem State.withHram_pins : (s.withHram h).pins = s.pins := rfl
@[simp] theorem State.withHram_inputs : (s.withHram h).inputs = s.inputs := rfl
@[simp] theorem State.withHram_out : (s.withHram h).out = s.out := rfl
@[simp] theorem State.withHram_draws : (s.withHram h).draws = s.draws := rfl

end

/-! ### withInputs -/

section
variable (l : List Input)

@[simp] theorem State.withInputs_config : (s.withInputs l).config = s.config := rfl
@[simp] theorem State.withInputs_controllerType : (s.withInputs l).controllerType = s.controllerType := rfl
@[simp] theorem State.withInputs_currentBank : (s.withInputs l).currentBank = s.currentBank := rfl
@[simp] theorem State.withInputs_romBankBase : (s.withInputs l).romBankBase = s.romBankBase := rfl
@[simp] theorem State.withInputs_workingRamBankBase : (s.withInputs l).workingRamBankBase = s.workingRamBankBase := rfl
@[simp] theorem State.withInputs_active : (s.withInputs l).active = s.active := rfl
@[simp] theorem State.withInputs_rom : (s.withInputs l).rom = s.rom := rfl
@[simp] theorem State.withInputs_romLocked : (s.withInputs l).romLocked = s.romLocked := rfl
@[simp] theorem State.withInputs_wram : (s.withInputs l).wram = s.wram := rfl
@[simp] theorem State.withInputs_hram : (s.withInputs l).hram = s.hram := rfl
@[simp] theorem State.withInputs_pins : (s.withInputs l).pins = s.pins := rfl
@[simp] theorem State.withInputs_inputs : (s.withInputs l).inputs = l := rfl
@[simp] theorem State.withInputs_out : (s.withInputs l).out = s.out := rfl
@[simp] theorem State.withInputs_draws : (s.withInputs l).draws = s.draws := rfl

end

/-! ### withPins -/

section
variable (p : Pins)

@[simp] theorem State.withPins_config : (s.withPins p).config = s.config := rfl
@[simp] theorem State.withPins_controllerType : (s.withPins p).controllerType = s.controllerType := rfl
@[simp] theorem State.withPins_currentBank : (s.withPins p).currentBank = s.currentBank := rfl
@[simp] theorem State.withPins_romBankBase : (s.withPins p).romBankBase = s.romBankBase := rfl
@[simp] theorem State.withPins_workingRamBankBase : (s.withPins p).workingRamBankBase = s.workingRamBankBase := rfl
@[simp] theorem State.withPins_active : (s.withPins p).active = s.active := rfl
@[simp] theorem State.withPins_rom : (s.withPins p).rom = s.rom := rfl
@[simp] theorem State.withPins_romLocked : (s.withPins p).romLocked = s.romLocked := rfl
@[simp] theorem State.withPins_wram : (s.withPins p).wram = s.wram := rfl
@[simp] theorem State.withPins_hram : (s.withPins p).hram = s.hram := rfl
@[simp] theorem State.withPins_pins : (s.withPins p).pins = p := rfl
@[simp] theorem State.withPins_inputs : (s.withPins p).inputs = s.inputs := rfl
@[simp] theorem State.withPins_out : (s.withPins p).out = s.out := rfl
@[simp] theorem State.withPins_draws : (s.withPins p).draws = s.draws := rfl

end

/-! ### withRom -/

section
variable (r : Option Rom)

@[simp] theorem State.withRom_config : (s.withRom r).config = s.config := rfl
@[simp] theorem State.withRom_controllerType : (s.withRom r).controllerType = s.controllerType := rfl
@[simp] theorem State.withRom_currentBank : (s.withRom r).currentBank = s.currentBank := rfl
@[simp] theorem State.withRom_romBankBase : (s.withRom r).romBankBase = s.romBankBase := rfl
@[simp] theorem State.withRom_workingRamBankBase : (s.withRom r).workingRamBankBase = s.workingRamBankBase := rfl
@[simp] theorem State.withRom_active : (s.withRom r).active = s.active := rfl
@[simp] theorem State.withRom_rom : (s.withRom r).rom = r := rfl
@[simp] theorem State.withRom_romLocked : (s.withRom r).romLocked = s.romLocked := rfl
@[simp] theorem State.withRom_wram : (s.withRom r).wram = s.wram := rfl
@[simp] theorem State.withRom_hram : (s.withRom r).hram = s.hram := rfl
@[simp] theorem State.withRom_pins : (s.withRom r).pins = s.pins := rfl
@[simp] theorem State.withRom_inputs : (s.withRom r).inputs = s.inputs := rfl
@[simp] theorem State.withRom_out : (s.withRom r).out = s.out := rfl
@[simp] theorem State.withRom_draws : (s.withRom r).draws = s.draws := rfl

end

/-! ### unspecify -/

@[simp] theorem unspecify_config : (unspecify s).config = s.config := rfl
@[simp] theorem unspecify_controllerType : (unspecify s).controllerType = Config.freeController s.draws := rfl
@[simp] theorem unspecify_currentBank : (unspecify s).currentBank = Config.freeBank s.draws := rfl
@[simp] theorem unspecify_romBankBase : (unspecify s).romBankBase = Config.freeRomBase s.draws := rfl
@[simp] theorem unspecify_workingRamBankBase : (unspecify s).workingRamBankBase = Config.freeWramBase s.draws := rfl
@[simp] theorem unspecify_active : (unspecify s).active = s.active := rfl
@[simp] theorem unspecify_rom : (unspecify s).rom = s.rom := rfl
@[simp] theorem unspecify_romLocked : (unspecify s).romLocked = s.romLocked := rfl
@[simp] theorem unspecify_wram : (unspecify s).wram = s.wram := rfl
@[simp] theorem unspecify_hram : (unspecify s).hram = { cells := [], fill := .free s.draws } := rfl
@[simp] theorem unspecify_pins : (unspecify s).pins = s.pins := rfl
@[simp] theorem unspecify_inputs : (unspecify s).inputs = s.inputs := rfl
@[simp] theorem unspecify_out : (unspecify s).out = s.out := rfl
@[simp] theorem unspecify_draws : (unspecify s).draws = s.draws + 1 := rfl

/-! ### The reads see only their own memory -/

section
variable (o : Outputs) (b : BitVec 7) (base : BitVec 21) (w : Option Block) (h : Block) (k : Nat)

@[simp] theorem State.withOut_romSize : (s.withOut o).romSize = s.romSize := rfl
@[simp] theorem State.withOut_readRom : (s.withOut o).readRom k = s.readRom k := rfl
@[simp] theorem State.withOut_readWram : (s.withOut o).readWram k = s.readWram k := rfl
@[simp] theorem State.withOut_readHram : (s.withOut o).readHram k = s.readHram k := rfl
@[simp] theorem State.withBank_romSize : (s.withBank b base).romSize = s.romSize := rfl
@[simp] theorem State.withBank_readRom : (s.withBank b base).readRom k = s.readRom k := rfl
@[simp] theorem State.withBank_readWram : (s.withBank b base).readWram k = s.readWram k := rfl
@[simp] theorem State.withBank_readHram : (s.withBank b base).readHram k = s.readHram k := rfl
@[simp] theorem State.withWram_romSize : (s.withWram w).romSize = s.romSize := rfl
@[simp] theorem State.withWram_readRom : (s.withWram w).readRom k = s.readRom k := rfl
@[simp] theorem State.withWram_readHram : (s.withWram w).readHram k = s.readHram k := rfl
@[simp] theorem State.withHram_romSize : (s.withHram h).romSize = s.romSize := rfl
@[simp] theorem State.withHram_readRom : (s.withHram h).readRom k = s.readRom k := rfl
@[simp] theorem State.withHram_readWram : (s.withHram h).readWram k = s.readWram k := rfl

end

/-! ### The outputs after their request's cycle -/

@[simp] theorem dropDiag_rspRdata (o : Outputs) : (dropDiag o).rspRdata = o.rspRdata := rfl
@[simp] theorem dropDiag_regionId (o : Outputs) : (dropDiag o).regionId = o.regionId := rfl
@[simp] theorem dropDiag_regionSel (o : Outputs) : (dropDiag o).regionSel = o.regionSel := rfl
@[simp] theorem dropDiag_vramOff (o : Outputs) : (dropDiag o).vramOff = o.vramOff := rfl
@[simp] theorem dropDiag_vramRe (o : Outputs) : (dropDiag o).vramRe = o.vramRe := rfl
@[simp] theorem dropDiag_vramWe (o : Outputs) : (dropDiag o).vramWe = o.vramWe := rfl
@[simp] theorem dropDiag_vramWdata (o : Outputs) : (dropDiag o).vramWdata = o.vramWdata := rfl
@[simp] theorem dropDiag_vramNotify (o : Outputs) : (dropDiag o).vramNotify = o.vramNotify := rfl
@[simp] theorem dropDiag_ioId (o : Outputs) : (dropDiag o).ioId = o.ioId := rfl
@[simp] theorem dropDiag_ioRe (o : Outputs) : (dropDiag o).ioRe = o.ioRe := rfl
@[simp] theorem dropDiag_ioWe (o : Outputs) : (dropDiag o).ioWe = o.ioWe := rfl
@[simp] theorem dropDiag_ioWdata (o : Outputs) : (dropDiag o).ioWdata = o.ioWdata := rfl
@[simp] theorem dropDiag_bsrCode (o : Outputs) : (dropDiag o).bsrCode = o.bsrCode := rfl
@[simp] theorem dropDiag_bsrBank (o : Outputs) : (dropDiag o).bsrBank = o.bsrBank := rfl
@[simp] theorem dropDiag_resetStatus (o : Outputs) : (dropDiag o).resetStatus = o.resetStatus := rfl
@[simp] theorem dropDiag_calls (o : Outputs) : (dropDiag o).calls = o.calls := rfl
@[simp] theorem dropDiag_diagValid (o : Outputs) : (dropDiag o).diagValid = false := rfl
@[simp] theorem dropDiag_diagCode (o : Outputs) : (dropDiag o).diagCode = .none := rfl
@[simp] theorem dropDiag_diagInfo (o : Outputs) : (dropDiag o).diagInfo = 0#16 := rfl

/-- Driving the outputs twice leaves the later ones. -/
@[simp] theorem State.withOut_withOut (o o' : Outputs) : (s.withOut o).withOut o' = s.withOut o' := rfl

end Sys2Proof.Machine
end

