-- ==== Sys2Proof/Laws/Ops.lean ====
section
/-! SUPPORT. What each shared operation can do, said once: the index fields stay in their ranges, the byte operations succeed exactly inside their memory, and admission and completion answer a next state in one way only. -/

namespace Sys2Proof.Machine

/-! ### Index fields (R95) -/

theorem romIndex_lt (a : Addr) : romIndex a < 0x4000 := by
  have h : (a &&& 0x3FFF#16).toNat ≤ 0x3FFF := by
    rw [BitVec.toNat_and]; exact Nat.and_le_right
  unfold romIndex; omega

theorem wramIndex_lt (a : Addr) : wramIndex a < 0x1000 := by
  have h : (a &&& 0x0FFF#16).toNat ≤ 0x0FFF := by
    rw [BitVec.toNat_and]; exact Nat.and_le_right
  unfold wramIndex; omega

theorem low_bits (a : Addr) {k : Nat} (hk : k ≤ 16) :
    (a &&& BitVec.ofNat 16 (2 ^ k - 1)).toNat = a.toNat % 2 ^ k := by
  have hlt : 2 ^ k - 1 < 2 ^ 16 := by
    have := Nat.pow_le_pow_right (n := 2) (by norm_num) hk
    have := Nat.two_pow_pos k
    omega
  rw [BitVec.toNat_and, BitVec.toNat_ofNat, Nat.mod_eq_of_lt hlt, Nat.and_two_pow_sub_one_eq_mod]

theorem romIndex_eq (a : Addr) : romIndex a = a.toNat % 0x4000 := low_bits a (k := 14) (by norm_num)

theorem wramIndex_eq (a : Addr) : wramIndex a = a.toNat % 0x1000 := low_bits a (k := 12) (by norm_num)

theorem hramIndex_eq (a : Addr) : hramIndex a = a.toNat % 0x80 := low_bits a (k := 7) (by norm_num)

/-- R95: an address of the HRAM region has an index below HRAM_SIZE. -/
theorem hramIndex_lt {a : Addr} (h : 0xFF80 ≤ a.toNat) (h' : a.toNat ≤ 0xFFFE) :
    hramIndex a < hramSize := by
  rw [hramIndex_eq, hramSize]; omega

/-- R27, R65: with the bank base in its range the bank-N window lies inside working RAM. -/
theorem wramNOffset_lt {s : State} (h : s.workingRamBankBase.toNat ≤ 0x1000) (a : Addr) :
    wramNOffset s a < wramSize := by
  have := wramIndex_lt a
  unfold wramNOffset wramSize; omega

theorem wram0Offset_lt (a : Addr) : wram0Offset a < wramSize := by
  have := wramIndex_lt a
  unfold wram0Offset wramSize; omega

/-! ### Reading a byte -/

theorem readRom_ok {s : State} {r : Rom} {o : Nat} (hr : s.rom = some r) (ho : o < r.size) :
    s.readRom o = .ok (Rom.byte r o) := by
  simp [State.readRom, hr, ho]

theorem readWram_ok {s : State} {b : Block} {o : Nat} (hb : s.wram = some b) (ho : o < wramSize) :
    s.readWram o = .ok (b.read o) := by
  simp [State.readWram, hb, ho]

theorem readHram_ok {s : State} {i : Nat} (hi : i < hramSize) : s.readHram i = .ok (s.hram.read i) := by
  simp [State.readHram, hi]

theorem romSize_of_some {s : State} {r : Rom} (hr : s.rom = some r) : s.romSize = r.size := by
  simp [State.romSize, hr]

/-! ### Writing a byte -/

/-- Everything a WRAM write can do. -/
theorem writeWram_ok_iff {s t : State} {o : Nat} {v : Byte} :
    s.writeWram o v = .ok t ↔
      ∃ b, s.wram = some b ∧ o < wramSize ∧ t = s.withWram (some (b.write o v)) := by
  unfold State.writeWram
  cases s.wram with
  | none => simp
  | some b =>
    by_cases ho : o < wramSize
    · simp [ho, eq_comm]
    · simp [ho]

/-- Everything an HRAM write can do. -/
theorem writeHram_ok_iff {s t : State} {i : Nat} {v : Byte} :
    s.writeHram i v = .ok t ↔ i < hramSize ∧ t = s.withHram (s.hram.write i v) := by
  unfold State.writeHram
  by_cases hi : i < hramSize
  · simp [hi, eq_comm]
  · simp [hi]

/-- A read after a write of the same WRAM byte gives the value written; every other byte reads as
before. -/
theorem readWram_write {s : State} {b : Block} {o : Nat} (v : Byte) (hb : s.wram = some b)
    (ho : o < wramSize) (p : Nat) :
    (s.withWram (some (b.write o v))).readWram p = if p = o then .ok v else s.readWram p := by
  by_cases hp : p = o
  · subst hp; simp [State.readWram, ho]
  · by_cases hs : p < wramSize
    · simp [State.readWram, hb, hs, hp, Block.read_write_other b v hp]
    · simp [State.readWram, hb, hs, hp]

/-- A read after a write of the same HRAM byte gives the value written; every other byte reads as
before. -/
theorem readHram_write {s : State} {i : Nat} (v : Byte) (hi : i < hramSize) (p : Nat) :
    (s.withHram (s.hram.write i v)).readHram p = if p = i then .ok v else s.readHram p := by
  by_cases hp : p = i
  · subst hp; simp [State.readHram, hi]
  · by_cases hs : p < hramSize
    · simp [State.readHram, hs, hp, Block.read_write_other s.hram v hp]
    · simp [State.readHram, hs, hp]

/-! ### Admission and completion -/

@[simp] theorem inSession_active {s : State} (h : s.active = true) (k : Result) : inSession s k = k := by
  simp [inSession, h]

@[simp] theorem inSession_inactive {s : State} (h : s.active = false) (k : Result) :
    inSession s k = .refused .noSession := by
  simp [inSession, h]

theorem inSession_next_iff {s t : State} {k : Result} :
    inSession s k = .next t ↔ s.active = true ∧ k = .next t := by
  cases h : s.active <;> simp [inSession, h]

theorem inSession_fault_iff {s : State} {k : Result} {f : Fault} :
    inSession s k = .fault f ↔ s.active = true ∧ k = .fault f := by
  cases h : s.active <;> simp [inSession, h]

theorem inSessionWide_next_iff {s t : State} {k : Result} :
    inSessionWide s k = .next t ↔ s.active = true ∧ s.config.strictUnimpl = false ∧ k = .next t := by
  cases h : s.active <;> cases h' : s.config.strictUnimpl <;> simp [inSessionWide, inSession, h, h']

theorem respond_next_iff {s t : State} {o : Outputs} : respond s o = .next t ↔ t = s.withOut o := by
  simp [respond, eq_comm]

theorem completeLoad_next_iff {s t : State} {a : Addr} {x : Except Fault Byte} :
    completeLoad s a x = .next t ↔ ∃ b, x = .ok b ∧ t = s.withOut (loadOut a b) := by
  cases x <;> simp [completeLoad, respond, eq_comm]

theorem completeStore_next_iff {t : State} {a : Addr} {x : Except Fault State} :
    completeStore a x = .next t ↔ ∃ u, x = .ok u ∧ t = u.withOut (idleOut a) := by
  cases x <;> simp [completeStore, respond, eq_comm]

/-! ### Taking the next input -/

theorem takeInput_nil {s : State} (h : s.inputs = []) :
    takeInput s = (.idle, s.withOut (dropDiag s.out)) := by
  simp [takeInput, h]

theorem takeInput_image {s : State} {r : Rom} {l : List Input} (h : s.inputs = .loadImage r :: l) :
    takeInput s = (.image r, (s.withOut (dropDiag s.out)).withInputs l) := by
  simp [takeInput, h]

theorem takeInput_request {s : State} {c : Cycle} {l : List Input} (h : s.inputs = .cycle c :: l)
    (hv : c.reqValid = true) :
    takeInput s = (.request c.word, (s.withInputs l).withPins c.pins) := by
  simp [takeInput, h, hv]

theorem takeInput_idle {s : State} {c : Cycle} {l : List Input} (h : s.inputs = .cycle c :: l)
    (hv : c.reqValid = false) :
    takeInput s = (.idle, (s.withOut (dropDiag s.out)).withInputs l) := by
  simp [takeInput, h, hv]

end Sys2Proof.Machine
end

