-- ==== Sys2Proof/Laws/Exec.lean ====
section
/-! SUPPORT. Everything a request can do to the state, said once: the effects of the Bank Controller, of exec and of step, each as one inversion lemma that later proofs cite instead of unfolding a meaning. -/

namespace Sys2Proof.Machine

/-! ### The Bank Controller -/

/-- Everything a controller write can do: report, or apply a switch to a bank in range (R185, R189). -/
inductive BankEffect (s : State) : State → Prop where
  | report (o : Outputs) : BankEffect s (s.withOut o)
  | applied (a : Addr) (b : BitVec 7) (hb : bankStart b + romBankSize ≤ s.romSize) :
      BankEffect s
        ((s.withBank b (BitVec.ofNat 21 (bankStart b))).withOut (bsrResult .applied b (idleOut a)))

/-- R185, the rejecting branch. -/
theorem trySwitch_rejected {s : State} {a : Addr} {b : BitVec 7}
    (h : s.romSize < bankStart b + romBankSize) :
    trySwitch a b s =
      s.withOut (raise .bankOor (b.setWidth 16) (bsrResult .rejected b (idleOut a))) := by
  simp [trySwitch, h]

/-- R185, the applying branch. -/
theorem trySwitch_applied {s : State} {a : Addr} {b : BitVec 7}
    (h : bankStart b + romBankSize ≤ s.romSize) :
    trySwitch a b s =
      (s.withBank b (BitVec.ofNat 21 (bankStart b))).withOut (bsrResult .applied b (idleOut a)) := by
  simp [trySwitch, Nat.not_lt.2 h]

theorem trySwitch_effect (a : Addr) (b : BitVec 7) (s : State) : BankEffect s (trySwitch a b s) := by
  by_cases h : bankStart b + romBankSize ≤ s.romSize
  · rw [trySwitch_applied h]; exact .applied a b h
  · rw [trySwitch_rejected (by omega)]; exact .report _

theorem bankedWrite_effect (a : Addr) (b : BitVec 7) (s : State) : BankEffect s (bankedWrite a b s) := by
  unfold bankedWrite
  split
  · exact .report _
  · split
    · exact trySwitch_effect a b s
    · exact .report _

theorem mbcWrite_effect (a : Addr) (v : Byte) (s : State) : BankEffect s (mbcWrite a v s) := by
  unfold mbcWrite
  split
  · exact .report _
  · exact bankedWrite_effect _ _ _
  · exact .report _
  · exact bankedWrite_effect _ _ _
  · exact .report _
  · exact bankedWrite_effect _ _ _

/-- A bank's byte offset fits the 21 bits of `romBankBase` (R6, R8). -/
theorem bankStart_toNat (b : BitVec 7) : (BitVec.ofNat 21 (bankStart b)).toNat = bankStart b := by
  have := b.isLt
  rw [BitVec.toNat_ofNat, Nat.mod_eq_of_lt]
  unfold bankStart romBankSize; omega

/-! ### The meanings -/

/-- Everything a request `i` that completes can do: drive outputs only, write one byte of WRAM or HRAM, run
a controller write, or be one of the lifecycle operations, each of which says so. -/
inductive ExecEffect (i : Instr) (s : State) : State → Prop where
  | answer (o : Outputs) (hi : isLifecycle i = false) (ha : s.active = true) :
      ExecEffect i s (s.withOut o)
  | bankWrite (a : Addr) (v : Byte) (hi : i ∈ mbcStores a v) (ha : s.active = true) :
      ExecEffect i s (mbcWrite a v s)
  | wramWrite (a : Addr) (b : Block) (o : Nat) (v : Byte) (hi : isLifecycle i = false)
      (ha : s.active = true) (hb : s.wram = some b) (ho : o < wramSize) :
      ExecEffect i s ((s.withWram (some (b.write o v))).withOut (idleOut a))
  | hramWrite (a : Addr) (k : Nat) (v : Byte) (hi : isLifecycle i = false) (ha : s.active = true)
      (hk : k < hramSize) :
      ExecEffect i s ((s.withHram (s.hram.write k v)).withOut (idleOut a))
  | init (a : Addr) (hi : i = .init a) : ExecEffect i s (afterInit a s)
  | reset (a : Addr) (r : Rom) (hi : i = .reset a) (hr : s.rom = some r) (hz : minRomSize ≤ r.size)
      (hp : s.pins.allocOk = true) : ExecEffect i s (afterReset a r s)
  | failedReset (a : Addr) (r : Rom) (hi : i = .reset a) (hr : s.rom = some r)
      (hz : minRomSize ≤ r.size) (hp : s.pins.allocOk = false) : ExecEffect i s (afterFailedReset a s)
  | deinit (a : Addr) (hi : i = .deinit a) : ExecEffect i s (afterDeinit a s)

theorem respond_effect {i : Instr} {s t : State} {o : Outputs} (hi : isLifecycle i = false)
    (h : inSession s (respond s o) = .next t) : ExecEffect i s t := by
  obtain ⟨ha, h⟩ := inSession_next_iff.1 h
  rw [respond_next_iff.1 h]; exact .answer o hi ha

theorem wide_effect {i : Instr} {s t : State} {o : Outputs} (hi : isLifecycle i = false)
    (h : inSessionWide s (respond s o) = .next t) : ExecEffect i s t := by
  obtain ⟨ha, -, h⟩ := inSessionWide_next_iff.1 h
  rw [respond_next_iff.1 h]; exact .answer o hi ha

theorem load_effect {i : Instr} {s t : State} {a : Addr} {x : Except Fault Byte}
    (hi : isLifecycle i = false) (h : inSession s (completeLoad s a x) = .next t) :
    ExecEffect i s t := by
  obtain ⟨ha, h⟩ := inSession_next_iff.1 h
  obtain ⟨b, -, rfl⟩ := completeLoad_next_iff.1 h
  exact .answer _ hi ha

theorem wramStore_effect {i : Instr} {s t : State} {a : Addr} {o : Nat} {v : Byte}
    (hi : isLifecycle i = false)
    (h : inSession s (completeStore a (s.writeWram o v)) = .next t) : ExecEffect i s t := by
  obtain ⟨ha, h⟩ := inSession_next_iff.1 h
  obtain ⟨u, hu, rfl⟩ := completeStore_next_iff.1 h
  obtain ⟨b, hb, ho, rfl⟩ := writeWram_ok_iff.1 hu
  exact .wramWrite a b o v hi ha hb ho

theorem hramStore_effect {i : Instr} {s t : State} {a : Addr} {k : Nat} {v : Byte}
    (hi : isLifecycle i = false)
    (h : inSession s (completeStore a (s.writeHram k v)) = .next t) : ExecEffect i s t := by
  obtain ⟨ha, h⟩ := inSession_next_iff.1 h
  obtain ⟨u, hu, rfl⟩ := completeStore_next_iff.1 h
  obtain ⟨hk, rfl⟩ := writeHram_ok_iff.1 hu
  exact .hramWrite a k v hi ha hk

theorem bankStore_effect {i : Instr} {s t : State} {a : Addr} {v : Byte} (hi : i ∈ mbcStores a v)
    (h : inSession s (.next (mbcWrite a v s)) = .next t) : ExecEffect i s t := by
  obtain ⟨ha, h⟩ := inSession_next_iff.1 h
  obtain rfl : mbcWrite a v s = t := by simpa using h
  exact .bankWrite a v hi ha

theorem reset_effect {s t : State} {a : Addr} (h : execReset a s = .next t) :
    ExecEffect (.reset a) s t := by
  unfold execReset at h
  split at h
  · simp at h
  · next r hr =>
    split at h
    · simp at h
    · next hz =>
      cases hp : s.pins.allocOk with
      | true => obtain rfl : afterReset a r s = t := by simpa [hp] using h
                exact .reset a r rfl hr (by omega) hp
      | false => obtain rfl : afterFailedReset a s = t := by simpa [hp] using h
                 exact .failedReset a r rfl hr (by omega) hp

/-- A request that answers a next state has one of these effects. -/
theorem exec_effect {i : Instr} {s t : State} (h : exec i s = .next t) : ExecEffect i s t := by
  cases i with
  | st8MbcS0 a v | st8MbcS1 a v | st8MbcS2 a v | st8MbcS3 a v =>
    exact bankStore_effect (a := a) (v := v) (by simp [mbcStores]) h
  | st8Wram0 a v | st8WramN a v | st8Echo0 a v | st8Echo1 a v | st8Echo2 a v | st8Echo3 a v =>
    exact wramStore_effect rfl h
  | st8Hram0 a v | st8Hram1 a v | st8Hram2 a v | st8Hram3 a v | st8Hram4 a v | st8Hram5 a v
  | st8Hram6 a v => exact hramStore_effect rfl h
  | ld8Rom0 a | ld8RomN a | ld8Wram0 a | ld8WramN a | ld8Echo0 a | ld8Echo1 a | ld8Echo2 a
  | ld8Echo3 a | ld8Hram0 a | ld8Hram1 a | ld8Hram2 a | ld8Hram3 a | ld8Hram4 a | ld8Hram5 a
  | ld8Hram6 a => exact load_effect rfl h
  | ld16 a => exact wide_effect rfl h
  | st16 a d => exact wide_effect rfl h
  | init a => obtain rfl : afterInit a s = t := by simpa [exec, execInit] using h
              exact .init a rfl
  | reset a => exact reset_effect h
  | deinit a => obtain rfl : afterDeinit a s = t := by simpa [exec, execDeinit] using h
                exact .deinit a rfl
  | _ => exact respond_effect rfl h

/-! ### The step -/

/-- Everything a step can do: take an idle cycle, take an image before a RESET has sampled one (with
either, the last request's diagnostic is dropped), or run the request of a cycle with that cycle's signals
on the pins. -/
inductive StepEffect (s : State) : State → Prop where
  | idle (l : List Input) (hl : ∀ x ∈ l, x ∈ s.inputs) :
      StepEffect s ((s.withOut (dropDiag s.out)).withInputs l)
  | image (r : Rom) (l : List Input) (hi : s.inputs = .loadImage r :: l)
      (hk : s.romLocked = false) :
      StepEffect s (((s.withOut (dropDiag s.out)).withInputs l).withRom (some r))
  | request (c : Cycle) (l : List Input) (i : Instr) (t : State)
      (hi : s.inputs = .cycle c :: l) (hv : c.reqValid = true) (hd : decode c.word = .ok i)
      (h : exec i ((s.withInputs l).withPins c.pins) = .next t) : StepEffect s t

/-- A step that answers a next state has one of these effects. -/
theorem step_effect {s t : State} (h : step s = .next t) : StepEffect s t := by
  unfold step at h
  cases hi : s.inputs with
  | nil =>
    rw [takeInput_nil hi] at h
    obtain rfl : s.withOut (dropDiag s.out) = t := by simpa using h
    exact .idle s.inputs (fun _ hx => hx)
  | cons x l =>
    cases x with
    | loadImage r =>
      rw [takeInput_image hi] at h
      cases hk : s.romLocked with
      | true => simp [supplyImage, hk] at h
      | false =>
        obtain rfl : ((s.withOut (dropDiag s.out)).withInputs l).withRom (some r) = t := by
          simpa [supplyImage, hk] using h
        exact .image r l hi hk
    | cycle c =>
      cases hv : c.reqValid with
      | true =>
        rw [takeInput_request hi hv] at h
        cases hd : decode c.word with
        | ok i => exact .request c l i t hi hv hd (by simpa [hd] using h)
        | error e => cases e; simp [hd, refuseWord] at h
      | false =>
        rw [takeInput_idle hi hv] at h
        obtain rfl : (s.withOut (dropDiag s.out)).withInputs l = t := by simpa using h
        exact .idle l (fun y hy => by rw [hi]; exact List.mem_cons_of_mem _ hy)

end Sys2Proof.Machine
end

