-- ==== Sys2Proof/Laws/PerInstr.lean ====
section
/-! SUPPORT. One lemma per constructor of Instr: a well-formed instruction's word selects a row of the opcode table, and that row builds the instruction from the word's fields. -/

namespace Sys2Proof.Laws

/-- The word of a well-formed instruction selects a row of the table that builds the instruction. -/
def RowOfInstr.Statement (i : Instr) : Prop :=
  WellFormed i → ∃ r ∈ opcodeRows, r.selects (encode i) = true ∧
    r.build (reqAddr (encode i)) (reqWdata (encode i)) = i

/-- The row at place `n` of the table, whose mask keeps the bits from `k` up and whose pattern is `p`,
for an instruction whose word has the fields `op`, `a` and `d`. -/
theorem RowOfInstr.of_place {i : Instr} {op : BitVec 3} {a : Addr} {d : Half} (n k p : Nat)
    (he : encode i = requestWord op a d) (hn : n < opcodeRows.length) (hk : k ≤ 35)
    (hm : opcodeRows[n].mask.toNat = 2 ^ 35 - 2 ^ k) (hp : opcodeRows[n].pattern.toNat = p)
    (hs : (op.toNat * 2 ^ 32 + a.toNat * 2 ^ 16 + d.toNat) / 2 ^ k * 2 ^ k = p)
    (hb : opcodeRows[n].build a d = i) :
    ∃ r ∈ opcodeRows, r.selects (encode i) = true ∧
      r.build (reqAddr (encode i)) (reqWdata (encode i)) = i := by
  refine ⟨opcodeRows[n], List.getElem_mem hn, (Row.selects_iff hk hm _).2 ?_, ?_⟩
  · rw [he, requestWord_toNat, hs, hp]
  · simpa [he] using hb

/-- A range check as bounds. -/
theorem inRange_iff {lo hi : Nat} {a : Addr} :
    inRange lo hi a = true ↔ lo ≤ a.toNat ∧ a.toNat ≤ hi := by
  simp [inRange]

theorem RowOfInstr.ld8Rom0 (a : Addr) : RowOfInstr.Statement (.ld8Rom0 a) := by
  intro h
  have h := inRange_iff.1 h
  have ha := a.isLt
  exact of_place 0 30 0x000000000 rfl (by decide) (by decide) (by decide) (by decide)
    (by simp only [BitVec.toNat_ofNat]; omega) rfl

theorem RowOfInstr.ld8RomN (a : Addr) : RowOfInstr.Statement (.ld8RomN a) := by
  intro h
  have h := inRange_iff.1 h
  have ha := a.isLt
  exact of_place 1 30 0x040000000 rfl (by decide) (by decide) (by decide) (by decide)
    (by simp only [BitVec.toNat_ofNat]; omega) rfl

theorem RowOfInstr.ld8Vram (a : Addr) : RowOfInstr.Statement (.ld8Vram a) := by
  intro h
  have h := inRange_iff.1 h
  have ha := a.isLt
  exact of_place 2 29 0x080000000 rfl (by decide) (by decide) (by decide) (by decide)
    (by simp only [BitVec.toNat_ofNat]; omega) rfl

theorem RowOfInstr.ld8Extram (a : Addr) : RowOfInstr.Statement (.ld8Extram a) := by
  intro h
  have h := inRange_iff.1 h
  have ha := a.isLt
  exact of_place 3 29 0x0A0000000 rfl (by decide) (by decide) (by decide) (by decide)
    (by simp only [BitVec.toNat_ofNat]; omega) rfl

theorem RowOfInstr.ld8Wram0 (a : Addr) : RowOfInstr.Statement (.ld8Wram0 a) := by
  intro h
  have h := inRange_iff.1 h
  have ha := a.isLt
  exact of_place 4 28 0x0C0000000 rfl (by decide) (by decide) (by decide) (by decide)
    (by simp only [BitVec.toNat_ofNat]; omega) rfl

theorem RowOfInstr.ld8WramN (a : Addr) : RowOfInstr.Statement (.ld8WramN a) := by
  intro h
  have h := inRange_iff.1 h
  have ha := a.isLt
  exact of_place 5 28 0x0D0000000 rfl (by decide) (by decide) (by decide) (by decide)
    (by simp only [BitVec.toNat_ofNat]; omega) rfl

theorem RowOfInstr.ld8Echo0 (a : Addr) : RowOfInstr.Statement (.ld8Echo0 a) := by
  intro h
  have h := inRange_iff.1 h
  have ha := a.isLt
  exact of_place 6 28 0x0E0000000 rfl (by decide) (by decide) (by decide) (by decide)
    (by simp only [BitVec.toNat_ofNat]; omega) rfl

theorem RowOfInstr.ld8Echo1 (a : Addr) : RowOfInstr.Statement (.ld8Echo1 a) := by
  intro h
  have h := inRange_iff.1 h
  have ha := a.isLt
  exact of_place 7 27 0x0F0000000 rfl (by decide) (by decide) (by decide) (by decide)
    (by simp only [BitVec.toNat_ofNat]; omega) rfl

theorem RowOfInstr.ld8Echo2 (a : Addr) : RowOfInstr.Statement (.ld8Echo2 a) := by
  intro h
  have h := inRange_iff.1 h
  have ha := a.isLt
  exact of_place 8 26 0x0F8000000 rfl (by decide) (by decide) (by decide) (by decide)
    (by simp only [BitVec.toNat_ofNat]; omega) rfl

theorem RowOfInstr.ld8Echo3 (a : Addr) : RowOfInstr.Statement (.ld8Echo3 a) := by
  intro h
  have h := inRange_iff.1 h
  have ha := a.isLt
  exact of_place 9 25 0x0FC000000 rfl (by decide) (by decide) (by decide) (by decide)
    (by simp only [BitVec.toNat_ofNat]; omega) rfl

theorem RowOfInstr.ld8Oam0 (a : Addr) : RowOfInstr.Statement (.ld8Oam0 a) := by
  intro h
  have h := inRange_iff.1 h
  have ha := a.isLt
  exact of_place 10 23 0x0FE000000 rfl (by decide) (by decide) (by decide) (by decide)
    (by simp only [BitVec.toNat_ofNat]; omega) rfl

theorem RowOfInstr.ld8Oam1 (a : Addr) : RowOfInstr.Statement (.ld8Oam1 a) := by
  intro h
  have h := inRange_iff.1 h
  have ha := a.isLt
  exact of_place 11 21 0x0FE800000 rfl (by decide) (by decide) (by decide) (by decide)
    (by simp only [BitVec.toNat_ofNat]; omega) rfl

theorem RowOfInstr.ld8Unusable0 (a : Addr) : RowOfInstr.Statement (.ld8Unusable0 a) := by
  intro h
  have h := inRange_iff.1 h
  have ha := a.isLt
  exact of_place 12 21 0x0FEA00000 rfl (by decide) (by decide) (by decide) (by decide)
    (by simp only [BitVec.toNat_ofNat]; omega) rfl

theorem RowOfInstr.ld8Unusable1 (a : Addr) : RowOfInstr.Statement (.ld8Unusable1 a) := by
  intro h
  have h := inRange_iff.1 h
  have ha := a.isLt
  exact of_place 13 22 0x0FEC00000 rfl (by decide) (by decide) (by decide) (by decide)
    (by simp only [BitVec.toNat_ofNat]; omega) rfl

theorem RowOfInstr.ld8Io (a : Addr) : RowOfInstr.Statement (.ld8Io a) := by
  intro h
  have h := inRange_iff.1 h
  have ha := a.isLt
  exact of_place 14 23 0x0FF000000 rfl (by decide) (by decide) (by decide) (by decide)
    (by simp only [BitVec.toNat_ofNat]; omega) rfl

theorem RowOfInstr.ld8Hram0 (a : Addr) : RowOfInstr.Statement (.ld8Hram0 a) := by
  intro h
  have h := inRange_iff.1 h
  have ha := a.isLt
  exact of_place 15 22 0x0FF800000 rfl (by decide) (by decide) (by decide) (by decide)
    (by simp only [BitVec.toNat_ofNat]; omega) rfl

theorem RowOfInstr.ld8Hram1 (a : Addr) : RowOfInstr.Statement (.ld8Hram1 a) := by
  intro h
  have h := inRange_iff.1 h
  have ha := a.isLt
  exact of_place 16 21 0x0FFC00000 rfl (by decide) (by decide) (by decide) (by decide)
    (by simp only [BitVec.toNat_ofNat]; omega) rfl

theorem RowOfInstr.ld8Hram2 (a : Addr) : RowOfInstr.Statement (.ld8Hram2 a) := by
  intro h
  have h := inRange_iff.1 h
  have ha := a.isLt
  exact of_place 17 20 0x0FFE00000 rfl (by decide) (by decide) (by decide) (by decide)
    (by simp only [BitVec.toNat_ofNat]; omega) rfl

theorem RowOfInstr.ld8Hram3 (a : Addr) : RowOfInstr.Statement (.ld8Hram3 a) := by
  intro h
  have h := inRange_iff.1 h
  have ha := a.isLt
  exact of_place 18 19 0x0FFF00000 rfl (by decide) (by decide) (by decide) (by decide)
    (by simp only [BitVec.toNat_ofNat]; omega) rfl

theorem RowOfInstr.ld8Hram4 (a : Addr) : RowOfInstr.Statement (.ld8Hram4 a) := by
  intro h
  have h := inRange_iff.1 h
  have ha := a.isLt
  exact of_place 19 18 0x0FFF80000 rfl (by decide) (by decide) (by decide) (by decide)
    (by simp only [BitVec.toNat_ofNat]; omega) rfl

theorem RowOfInstr.ld8Hram5 (a : Addr) : RowOfInstr.Statement (.ld8Hram5 a) := by
  intro h
  have h := inRange_iff.1 h
  have ha := a.isLt
  exact of_place 20 17 0x0FFFC0000 rfl (by decide) (by decide) (by decide) (by decide)
    (by simp only [BitVec.toNat_ofNat]; omega) rfl

theorem RowOfInstr.ld8Hram6 (a : Addr) : RowOfInstr.Statement (.ld8Hram6 a) := by
  intro h
  have h := inRange_iff.1 h
  have ha := a.isLt
  exact of_place 21 16 0x0FFFE0000 rfl (by decide) (by decide) (by decide) (by decide)
    (by simp only [BitVec.toNat_ofNat]; omega) rfl

theorem RowOfInstr.ld8Ie (a : Addr) : RowOfInstr.Statement (.ld8Ie a) := by
  intro h
  have h := inRange_iff.1 h
  have ha := a.isLt
  exact of_place 22 16 0x0FFFF0000 rfl (by decide) (by decide) (by decide) (by decide)
    (by simp only [BitVec.toNat_ofNat]; omega) rfl

theorem RowOfInstr.st8MbcS0 (a : Addr) (v : Byte) : RowOfInstr.Statement (.st8MbcS0 a v) := by
  intro h
  have h := inRange_iff.1 h
  have ha := a.isLt
  have hd := (v.setWidth 16).isLt
  exact of_place 23 29 0x100000000 rfl (by decide) (by decide) (by decide) (by decide)
    (by simp only [BitVec.toNat_ofNat]; omega) (congrArg (Instr.st8MbcS0 a) (storeByte_setWidth v))

theorem RowOfInstr.st8MbcS1 (a : Addr) (v : Byte) : RowOfInstr.Statement (.st8MbcS1 a v) := by
  intro h
  have h := inRange_iff.1 h
  have ha := a.isLt
  have hd := (v.setWidth 16).isLt
  exact of_place 24 29 0x120000000 rfl (by decide) (by decide) (by decide) (by decide)
    (by simp only [BitVec.toNat_ofNat]; omega) (congrArg (Instr.st8MbcS1 a) (storeByte_setWidth v))

theorem RowOfInstr.st8MbcS2 (a : Addr) (v : Byte) : RowOfInstr.Statement (.st8MbcS2 a v) := by
  intro h
  have h := inRange_iff.1 h
  have ha := a.isLt
  have hd := (v.setWidth 16).isLt
  exact of_place 25 29 0x140000000 rfl (by decide) (by decide) (by decide) (by decide)
    (by simp only [BitVec.toNat_ofNat]; omega) (congrArg (Instr.st8MbcS2 a) (storeByte_setWidth v))

theorem RowOfInstr.st8MbcS3 (a : Addr) (v : Byte) : RowOfInstr.Statement (.st8MbcS3 a v) := by
  intro h
  have h := inRange_iff.1 h
  have ha := a.isLt
  have hd := (v.setWidth 16).isLt
  exact of_place 26 29 0x160000000 rfl (by decide) (by decide) (by decide) (by decide)
    (by simp only [BitVec.toNat_ofNat]; omega) (congrArg (Instr.st8MbcS3 a) (storeByte_setWidth v))

theorem RowOfInstr.st8Vram (a : Addr) (v : Byte) : RowOfInstr.Statement (.st8Vram a v) := by
  intro h
  have h := inRange_iff.1 h
  have ha := a.isLt
  have hd := (v.setWidth 16).isLt
  exact of_place 27 29 0x180000000 rfl (by decide) (by decide) (by decide) (by decide)
    (by simp only [BitVec.toNat_ofNat]; omega) (congrArg (Instr.st8Vram a) (storeByte_setWidth v))

theorem RowOfInstr.st8Extram (a : Addr) (v : Byte) : RowOfInstr.Statement (.st8Extram a v) := by
  intro h
  have h := inRange_iff.1 h
  have ha := a.isLt
  have hd := (v.setWidth 16).isLt
  exact of_place 28 29 0x1A0000000 rfl (by decide) (by decide) (by decide) (by decide)
    (by simp only [BitVec.toNat_ofNat]; omega) (congrArg (Instr.st8Extram a) (storeByte_setWidth v))

theorem RowOfInstr.st8Wram0 (a : Addr) (v : Byte) : RowOfInstr.Statement (.st8Wram0 a v) := by
  intro h
  have h := inRange_iff.1 h
  have ha := a.isLt
  have hd := (v.setWidth 16).isLt
  exact of_place 29 28 0x1C0000000 rfl (by decide) (by decide) (by decide) (by decide)
    (by simp only [BitVec.toNat_ofNat]; omega) (congrArg (Instr.st8Wram0 a) (storeByte_setWidth v))

theorem RowOfInstr.st8WramN (a : Addr) (v : Byte) : RowOfInstr.Statement (.st8WramN a v) := by
  intro h
  have h := inRange_iff.1 h
  have ha := a.isLt
  have hd := (v.setWidth 16).isLt
  exact of_place 30 28 0x1D0000000 rfl (by decide) (by decide) (by decide) (by decide)
    (by simp only [BitVec.toNat_ofNat]; omega) (congrArg (Instr.st8WramN a) (storeByte_setWidth v))

theorem RowOfInstr.st8Echo0 (a : Addr) (v : Byte) : RowOfInstr.Statement (.st8Echo0 a v) := by
  intro h
  have h := inRange_iff.1 h
  have ha := a.isLt
  have hd := (v.setWidth 16).isLt
  exact of_place 31 28 0x1E0000000 rfl (by decide) (by decide) (by decide) (by decide)
    (by simp only [BitVec.toNat_ofNat]; omega) (congrArg (Instr.st8Echo0 a) (storeByte_setWidth v))

theorem RowOfInstr.st8Echo1 (a : Addr) (v : Byte) : RowOfInstr.Statement (.st8Echo1 a v) := by
  intro h
  have h := inRange_iff.1 h
  have ha := a.isLt
  have hd := (v.setWidth 16).isLt
  exact of_place 32 27 0x1F0000000 rfl (by decide) (by decide) (by decide) (by decide)
    (by simp only [BitVec.toNat_ofNat]; omega) (congrArg (Instr.st8Echo1 a) (storeByte_setWidth v))

theorem RowOfInstr.st8Echo2 (a : Addr) (v : Byte) : RowOfInstr.Statement (.st8Echo2 a v) := by
  intro h
  have h := inRange_iff.1 h
  have ha := a.isLt
  have hd := (v.setWidth 16).isLt
  exact of_place 33 26 0x1F8000000 rfl (by decide) (by decide) (by decide) (by decide)
    (by simp only [BitVec.toNat_ofNat]; omega) (congrArg (Instr.st8Echo2 a) (storeByte_setWidth v))

theorem RowOfInstr.st8Echo3 (a : Addr) (v : Byte) : RowOfInstr.Statement (.st8Echo3 a v) := by
  intro h
  have h := inRange_iff.1 h
  have ha := a.isLt
  have hd := (v.setWidth 16).isLt
  exact of_place 34 25 0x1FC000000 rfl (by decide) (by decide) (by decide) (by decide)
    (by simp only [BitVec.toNat_ofNat]; omega) (congrArg (Instr.st8Echo3 a) (storeByte_setWidth v))

theorem RowOfInstr.st8Oam0 (a : Addr) (v : Byte) : RowOfInstr.Statement (.st8Oam0 a v) := by
  intro h
  have h := inRange_iff.1 h
  have ha := a.isLt
  have hd := (v.setWidth 16).isLt
  exact of_place 35 23 0x1FE000000 rfl (by decide) (by decide) (by decide) (by decide)
    (by simp only [BitVec.toNat_ofNat]; omega) (congrArg (Instr.st8Oam0 a) (storeByte_setWidth v))

theorem RowOfInstr.st8Oam1 (a : Addr) (v : Byte) : RowOfInstr.Statement (.st8Oam1 a v) := by
  intro h
  have h := inRange_iff.1 h
  have ha := a.isLt
  have hd := (v.setWidth 16).isLt
  exact of_place 36 21 0x1FE800000 rfl (by decide) (by decide) (by decide) (by decide)
    (by simp only [BitVec.toNat_ofNat]; omega) (congrArg (Instr.st8Oam1 a) (storeByte_setWidth v))

theorem RowOfInstr.st8Unusable0 (a : Addr) (v : Byte) : RowOfInstr.Statement (.st8Unusable0 a v) := by
  intro h
  have h := inRange_iff.1 h
  have ha := a.isLt
  have hd := (v.setWidth 16).isLt
  exact of_place 37 21 0x1FEA00000 rfl (by decide) (by decide) (by decide) (by decide)
    (by simp only [BitVec.toNat_ofNat]; omega) (congrArg (Instr.st8Unusable0 a) (storeByte_setWidth v))

theorem RowOfInstr.st8Unusable1 (a : Addr) (v : Byte) : RowOfInstr.Statement (.st8Unusable1 a v) := by
  intro h
  have h := inRange_iff.1 h
  have ha := a.isLt
  have hd := (v.setWidth 16).isLt
  exact of_place 38 22 0x1FEC00000 rfl (by decide) (by decide) (by decide) (by decide)
    (by simp only [BitVec.toNat_ofNat]; omega) (congrArg (Instr.st8Unusable1 a) (storeByte_setWidth v))

theorem RowOfInstr.st8Io (a : Addr) (v : Byte) : RowOfInstr.Statement (.st8Io a v) := by
  intro h
  have h := inRange_iff.1 h
  have ha := a.isLt
  have hd := (v.setWidth 16).isLt
  exact of_place 39 23 0x1FF000000 rfl (by decide) (by decide) (by decide) (by decide)
    (by simp only [BitVec.toNat_ofNat]; omega) (congrArg (Instr.st8Io a) (storeByte_setWidth v))

theorem RowOfInstr.st8Hram0 (a : Addr) (v : Byte) : RowOfInstr.Statement (.st8Hram0 a v) := by
  intro h
  have h := inRange_iff.1 h
  have ha := a.isLt
  have hd := (v.setWidth 16).isLt
  exact of_place 40 22 0x1FF800000 rfl (by decide) (by decide) (by decide) (by decide)
    (by simp only [BitVec.toNat_ofNat]; omega) (congrArg (Instr.st8Hram0 a) (storeByte_setWidth v))

theorem RowOfInstr.st8Hram1 (a : Addr) (v : Byte) : RowOfInstr.Statement (.st8Hram1 a v) := by
  intro h
  have h := inRange_iff.1 h
  have ha := a.isLt
  have hd := (v.setWidth 16).isLt
  exact of_place 41 21 0x1FFC00000 rfl (by decide) (by decide) (by decide) (by decide)
    (by simp only [BitVec.toNat_ofNat]; omega) (congrArg (Instr.st8Hram1 a) (storeByte_setWidth v))

theorem RowOfInstr.st8Hram2 (a : Addr) (v : Byte) : RowOfInstr.Statement (.st8Hram2 a v) := by
  intro h
  have h := inRange_iff.1 h
  have ha := a.isLt
  have hd := (v.setWidth 16).isLt
  exact of_place 42 20 0x1FFE00000 rfl (by decide) (by decide) (by decide) (by decide)
    (by simp only [BitVec.toNat_ofNat]; omega) (congrArg (Instr.st8Hram2 a) (storeByte_setWidth v))

theorem RowOfInstr.st8Hram3 (a : Addr) (v : Byte) : RowOfInstr.Statement (.st8Hram3 a v) := by
  intro h
  have h := inRange_iff.1 h
  have ha := a.isLt
  have hd := (v.setWidth 16).isLt
  exact of_place 43 19 0x1FFF00000 rfl (by decide) (by decide) (by decide) (by decide)
    (by simp only [BitVec.toNat_ofNat]; omega) (congrArg (Instr.st8Hram3 a) (storeByte_setWidth v))

theorem RowOfInstr.st8Hram4 (a : Addr) (v : Byte) : RowOfInstr.Statement (.st8Hram4 a v) := by
  intro h
  have h := inRange_iff.1 h
  have ha := a.isLt
  have hd := (v.setWidth 16).isLt
  exact of_place 44 18 0x1FFF80000 rfl (by decide) (by decide) (by decide) (by decide)
    (by simp only [BitVec.toNat_ofNat]; omega) (congrArg (Instr.st8Hram4 a) (storeByte_setWidth v))

theorem RowOfInstr.st8Hram5 (a : Addr) (v : Byte) : RowOfInstr.Statement (.st8Hram5 a v) := by
  intro h
  have h := inRange_iff.1 h
  have ha := a.isLt
  have hd := (v.setWidth 16).isLt
  exact of_place 45 17 0x1FFFC0000 rfl (by decide) (by decide) (by decide) (by decide)
    (by simp only [BitVec.toNat_ofNat]; omega) (congrArg (Instr.st8Hram5 a) (storeByte_setWidth v))

theorem RowOfInstr.st8Hram6 (a : Addr) (v : Byte) : RowOfInstr.Statement (.st8Hram6 a v) := by
  intro h
  have h := inRange_iff.1 h
  have ha := a.isLt
  have hd := (v.setWidth 16).isLt
  exact of_place 46 16 0x1FFFE0000 rfl (by decide) (by decide) (by decide) (by decide)
    (by simp only [BitVec.toNat_ofNat]; omega) (congrArg (Instr.st8Hram6 a) (storeByte_setWidth v))

theorem RowOfInstr.st8Ie (a : Addr) (v : Byte) : RowOfInstr.Statement (.st8Ie a v) := by
  intro h
  have h := inRange_iff.1 h
  have ha := a.isLt
  have hd := (v.setWidth 16).isLt
  exact of_place 47 16 0x1FFFF0000 rfl (by decide) (by decide) (by decide) (by decide)
    (by simp only [BitVec.toNat_ofNat]; omega) (congrArg (Instr.st8Ie a) (storeByte_setWidth v))

theorem RowOfInstr.ld16 (a : Addr) : RowOfInstr.Statement (.ld16 a) := by
  intro h
  have ha := a.isLt
  exact of_place 48 32 0x200000000 rfl (by decide) (by decide) (by decide) (by decide)
    (by simp only [BitVec.toNat_ofNat]; omega) rfl

theorem RowOfInstr.st16 (a : Addr) (d : Half) : RowOfInstr.Statement (.st16 a d) := by
  intro h
  have ha := a.isLt
  have hd := d.isLt
  exact of_place 49 32 0x300000000 rfl (by decide) (by decide) (by decide) (by decide)
    (by simp only [BitVec.toNat_ofNat]; omega) rfl

theorem RowOfInstr.init (a : Addr) : RowOfInstr.Statement (.init a) := by
  intro h
  have ha := a.isLt
  exact of_place 50 32 0x400000000 rfl (by decide) (by decide) (by decide) (by decide)
    (by simp only [BitVec.toNat_ofNat]; omega) rfl

theorem RowOfInstr.reset (a : Addr) : RowOfInstr.Statement (.reset a) := by
  intro h
  have ha := a.isLt
  exact of_place 51 32 0x500000000 rfl (by decide) (by decide) (by decide) (by decide)
    (by simp only [BitVec.toNat_ofNat]; omega) rfl

theorem RowOfInstr.deinit (a : Addr) : RowOfInstr.Statement (.deinit a) := by
  intro h
  have ha := a.isLt
  exact of_place 52 32 0x600000000 rfl (by decide) (by decide) (by decide) (by decide)
    (by simp only [BitVec.toNat_ofNat]; omega) rfl

end Sys2Proof.Laws
end

