-- ==== Sys2Proof/Tests/Slice0.lean ====
section
/-! SUPPORT. Tests of the model. Expected results are those of spec/95_test_vectors.md, of the opcode table's rows and of the rules' own examples; the last part shows, for each statement with hypotheses, a concrete state and operands that meet them all. -/

namespace Sys2Proof.Tests

open Sys2Proof Sys2Proof.Machine

/-! ### The states the tests start from -/

/-- The bytes the tests read of the image IMG(size, t) of 95_test_vectors.md: each byte is its bank
number, and offset 0x147 is the type byte. -/
def img (size : Nat) (t : Byte) : Rom where
  size := size
  cells := [(0x147, t), (0x4000, 0x01#8), (0x7FFF, 0x01#8), (0x8000, 0x02#8), (0xBFFF, 0x02#8),
    (0xC000, 0x03#8), (0xFFFF, 0x03#8)].filter (fun c => decide (c.1 < size) && c.2 != 0x00#8)

/-- The session of IMG(size, t) right after RESET. -/
def session (size : Nat) (t : Byte) : State :=
  { State.reset with controllerType := variantOf t, rom := some (img size t) }

/-- The session of section 2.2: IMG(0x10000, 0x01), Type1. -/
def s1 : State := session 0x10000 0x01#8

/-- A Type5 session of four banks that has selected bank `b`. -/
def type5At (b : BitVec 7) (base : BitVec 21) : State :=
  (session 0x10000 0x19#8).withBank b base

/-- A session whose bank-N base is the parameter `n`. -/
def sessionWramN (n : BitVec 13) : State :=
  { session 0x8000 0x01#8 with
    config := { State.reset.config with wramBankNOffset := n }, workingRamBankBase := n }

/-- The collaborators' bytes and `alloc_ok` of a cycle. -/
def pins (vram io : Byte) (ok : Bool) : Pins := { vramRdata := vram, ioRdata := io, allocOk := ok }

/-- A cycle that presents a word, with `alloc_ok = 1` and both bytes 0. -/
def cycleOf (w : RequestWord) : Cycle := { reqValid := true, word := w, pins := pins 0 0 true }

/-- The state a request leads to, if it completes. -/
def next? : Result → Option State
  | .next t => some t
  | _ => none

/-- The outputs of a request, if it completes. -/
def out? (r : Result) : Option Outputs := (next? r).map State.out

/-- The refusal of a request, if it is refused. -/
def refusal? : Result → Option Refusal
  | .refused r => some r
  | _ => none

/-- The fault of a request, if it faults. -/
def fault? : Result → Option Fault
  | .fault f => some f
  | _ => none

/-- `rsp_rdata` of a request. -/
def rsp? (r : Result) : Option Half := (out? r).map Outputs.rspRdata

/-- `bsr_code`, `bsr_bank`, `diag_code` and `diag_info` of a request. -/
def report? (r : Result) : Option (BsrCode × BitVec 7 × DiagCode × BitVec 16) :=
  (out? r).map (fun o => (o.bsrCode, o.bsrBank, o.diagCode, o.diagInfo))

/-- `currentBank` and `romBankBase` after a request. -/
def bank? (r : Result) : Option (BitVec 7 × BitVec 21) :=
  (next? r).map (fun t => (t.currentBank, t.romBankBase))

/-! ### Well-formedness: an address just outside each row's range is refused -/

theorem test_wf_refuses_ld8_rom_to_echo :
    ([.ld8Rom0 0x4000#16, .ld8RomN 0x3FFF#16, .ld8RomN 0x8000#16,
      .ld8Vram 0x7FFF#16, .ld8Vram 0xA000#16, .ld8Extram 0x9FFF#16,
      .ld8Extram 0xC000#16, .ld8Wram0 0xBFFF#16, .ld8Wram0 0xD000#16,
      .ld8WramN 0xCFFF#16, .ld8WramN 0xE000#16, .ld8Echo0 0xDFFF#16,
      .ld8Echo0 0xF000#16, .ld8Echo1 0xEFFF#16, .ld8Echo1 0xF800#16,
      .ld8Echo2 0xF7FF#16, .ld8Echo2 0xFC00#16, .ld8Echo3 0xFBFF#16,
      .ld8Echo3 0xFE00#16] : List Instr).all
      (fun i => !i.wf) = true := by decide

theorem test_wf_refuses_ld8_oam_to_ie :
    ([.ld8Oam0 0xFDFF#16, .ld8Oam0 0xFE80#16, .ld8Oam1 0xFE7F#16,
      .ld8Oam1 0xFEA0#16, .ld8Unusable0 0xFE9F#16, .ld8Unusable0 0xFEC0#16,
      .ld8Unusable1 0xFEBF#16, .ld8Unusable1 0xFF00#16, .ld8Io 0xFEFF#16,
      .ld8Io 0xFF80#16, .ld8Hram0 0xFF7F#16, .ld8Hram0 0xFFC0#16,
      .ld8Hram1 0xFFBF#16, .ld8Hram1 0xFFE0#16, .ld8Hram2 0xFFDF#16,
      .ld8Hram2 0xFFF0#16, .ld8Hram3 0xFFEF#16, .ld8Hram3 0xFFF8#16,
      .ld8Hram4 0xFFF7#16, .ld8Hram4 0xFFFC#16, .ld8Hram5 0xFFFB#16,
      .ld8Hram5 0xFFFE#16, .ld8Hram6 0xFFFD#16, .ld8Hram6 0xFFFF#16,
      .ld8Ie 0xFFFE#16] : List Instr).all
      (fun i => !i.wf) = true := by decide

theorem test_wf_refuses_st8_mbc_to_echo :
    ([.st8MbcS0 0x2000#16 0x5A#8, .st8MbcS1 0x1FFF#16 0x5A#8, .st8MbcS1 0x4000#16 0x5A#8,
      .st8MbcS2 0x3FFF#16 0x5A#8, .st8MbcS2 0x6000#16 0x5A#8, .st8MbcS3 0x5FFF#16 0x5A#8,
      .st8MbcS3 0x8000#16 0x5A#8, .st8Vram 0x7FFF#16 0x5A#8, .st8Vram 0xA000#16 0x5A#8,
      .st8Extram 0x9FFF#16 0x5A#8, .st8Extram 0xC000#16 0x5A#8, .st8Wram0 0xBFFF#16 0x5A#8,
      .st8Wram0 0xD000#16 0x5A#8, .st8WramN 0xCFFF#16 0x5A#8, .st8WramN 0xE000#16 0x5A#8,
      .st8Echo0 0xDFFF#16 0x5A#8, .st8Echo0 0xF000#16 0x5A#8, .st8Echo1 0xEFFF#16 0x5A#8,
      .st8Echo1 0xF800#16 0x5A#8, .st8Echo2 0xF7FF#16 0x5A#8, .st8Echo2 0xFC00#16 0x5A#8,
      .st8Echo3 0xFBFF#16 0x5A#8, .st8Echo3 0xFE00#16 0x5A#8] : List Instr).all
      (fun i => !i.wf) = true := by decide

theorem test_wf_refuses_st8_oam_to_ie :
    ([.st8Oam0 0xFDFF#16 0x5A#8, .st8Oam0 0xFE80#16 0x5A#8, .st8Oam1 0xFE7F#16 0x5A#8,
      .st8Oam1 0xFEA0#16 0x5A#8, .st8Unusable0 0xFE9F#16 0x5A#8, .st8Unusable0 0xFEC0#16 0x5A#8,
      .st8Unusable1 0xFEBF#16 0x5A#8, .st8Unusable1 0xFF00#16 0x5A#8, .st8Io 0xFEFF#16 0x5A#8,
      .st8Io 0xFF80#16 0x5A#8, .st8Hram0 0xFF7F#16 0x5A#8, .st8Hram0 0xFFC0#16 0x5A#8,
      .st8Hram1 0xFFBF#16 0x5A#8, .st8Hram1 0xFFE0#16 0x5A#8, .st8Hram2 0xFFDF#16 0x5A#8,
      .st8Hram2 0xFFF0#16 0x5A#8, .st8Hram3 0xFFEF#16 0x5A#8, .st8Hram3 0xFFF8#16 0x5A#8,
      .st8Hram4 0xFFF7#16 0x5A#8, .st8Hram4 0xFFFC#16 0x5A#8, .st8Hram5 0xFFFB#16 0x5A#8,
      .st8Hram5 0xFFFE#16 0x5A#8, .st8Hram6 0xFFFD#16 0x5A#8, .st8Hram6 0xFFFF#16 0x5A#8,
      .st8Ie 0xFFFE#16 0x5A#8] : List Instr).all
      (fun i => !i.wf) = true := by decide

/-! ### Decoding: a word of each row, written from R91 and the table of 95_test_vectors.md section 2.1 -/

theorem test_decode_ld8_rom_to_echo :
    decode 0x03FFF0000#35 = .ok (.ld8Rom0 0x3FFF#16) ∧
    decode 0x07FFF0000#35 = .ok (.ld8RomN 0x7FFF#16) ∧
    decode 0x09FFF0000#35 = .ok (.ld8Vram 0x9FFF#16) ∧
    decode 0x0BFFF0000#35 = .ok (.ld8Extram 0xBFFF#16) ∧
    decode 0x0CFFF0000#35 = .ok (.ld8Wram0 0xCFFF#16) ∧
    decode 0x0DFFF0000#35 = .ok (.ld8WramN 0xDFFF#16) ∧
    decode 0x0EFFF0000#35 = .ok (.ld8Echo0 0xEFFF#16) ∧
    decode 0x0F7FF0000#35 = .ok (.ld8Echo1 0xF7FF#16) ∧
    decode 0x0FBFF0000#35 = .ok (.ld8Echo2 0xFBFF#16) ∧
    decode 0x0FDFF0000#35 = .ok (.ld8Echo3 0xFDFF#16) := by decide

theorem test_decode_ld8_oam_to_io :
    decode 0x0FE7F0000#35 = .ok (.ld8Oam0 0xFE7F#16) ∧
    decode 0x0FE9F0000#35 = .ok (.ld8Oam1 0xFE9F#16) ∧
    decode 0x0FEBF0000#35 = .ok (.ld8Unusable0 0xFEBF#16) ∧
    decode 0x0FEFF0000#35 = .ok (.ld8Unusable1 0xFEFF#16) ∧
    decode 0x0FF7F0000#35 = .ok (.ld8Io 0xFF7F#16) := by decide

theorem test_decode_ld8_hram_ie :
    decode 0x0FFBF0000#35 = .ok (.ld8Hram0 0xFFBF#16) ∧
    decode 0x0FFDF0000#35 = .ok (.ld8Hram1 0xFFDF#16) ∧
    decode 0x0FFEF0000#35 = .ok (.ld8Hram2 0xFFEF#16) ∧
    decode 0x0FFF70000#35 = .ok (.ld8Hram3 0xFFF7#16) ∧
    decode 0x0FFFB0000#35 = .ok (.ld8Hram4 0xFFFB#16) ∧
    decode 0x0FFFD0000#35 = .ok (.ld8Hram5 0xFFFD#16) ∧
    decode 0x0FFFE0000#35 = .ok (.ld8Hram6 0xFFFE#16) ∧
    decode 0x0FFFF0000#35 = .ok (.ld8Ie 0xFFFF#16) := by decide

theorem test_decode_st8_mbc_to_echo :
    decode 0x11FFF005A#35 = .ok (.st8MbcS0 0x1FFF#16 0x5A#8) ∧
    decode 0x13FFF005A#35 = .ok (.st8MbcS1 0x3FFF#16 0x5A#8) ∧
    decode 0x15FFF005A#35 = .ok (.st8MbcS2 0x5FFF#16 0x5A#8) ∧
    decode 0x17FFF005A#35 = .ok (.st8MbcS3 0x7FFF#16 0x5A#8) ∧
    decode 0x19FFF005A#35 = .ok (.st8Vram 0x9FFF#16 0x5A#8) ∧
    decode 0x1BFFF005A#35 = .ok (.st8Extram 0xBFFF#16 0x5A#8) ∧
    decode 0x1CFFF005A#35 = .ok (.st8Wram0 0xCFFF#16 0x5A#8) ∧
    decode 0x1DFFF005A#35 = .ok (.st8WramN 0xDFFF#16 0x5A#8) ∧
    decode 0x1EFFF005A#35 = .ok (.st8Echo0 0xEFFF#16 0x5A#8) ∧
    decode 0x1F7FF005A#35 = .ok (.st8Echo1 0xF7FF#16 0x5A#8) ∧
    decode 0x1FBFF005A#35 = .ok (.st8Echo2 0xFBFF#16 0x5A#8) ∧
    decode 0x1FDFF005A#35 = .ok (.st8Echo3 0xFDFF#16 0x5A#8) := by decide

theorem test_decode_st8_oam_to_io :
    decode 0x1FE7F005A#35 = .ok (.st8Oam0 0xFE7F#16 0x5A#8) ∧
    decode 0x1FE9F005A#35 = .ok (.st8Oam1 0xFE9F#16 0x5A#8) ∧
    decode 0x1FEBF005A#35 = .ok (.st8Unusable0 0xFEBF#16 0x5A#8) ∧
    decode 0x1FEFF005A#35 = .ok (.st8Unusable1 0xFEFF#16 0x5A#8) ∧
    decode 0x1FF7F005A#35 = .ok (.st8Io 0xFF7F#16 0x5A#8) := by decide

theorem test_decode_st8_hram_ie :
    decode 0x1FFBF005A#35 = .ok (.st8Hram0 0xFFBF#16 0x5A#8) ∧
    decode 0x1FFDF005A#35 = .ok (.st8Hram1 0xFFDF#16 0x5A#8) ∧
    decode 0x1FFEF005A#35 = .ok (.st8Hram2 0xFFEF#16 0x5A#8) ∧
    decode 0x1FFF7005A#35 = .ok (.st8Hram3 0xFFF7#16 0x5A#8) ∧
    decode 0x1FFFB005A#35 = .ok (.st8Hram4 0xFFFB#16 0x5A#8) ∧
    decode 0x1FFFD005A#35 = .ok (.st8Hram5 0xFFFD#16 0x5A#8) ∧
    decode 0x1FFFE005A#35 = .ok (.st8Hram6 0xFFFE#16 0x5A#8) ∧
    decode 0x1FFFF005A#35 = .ok (.st8Ie 0xFFFF#16 0x5A#8) := by decide

theorem test_decode_other_operations :
    decode 0x2FFFF0000#35 = .ok (.ld16 0xFFFF#16) ∧
    decode 0x32000BEEF#35 = .ok (.st16 0x2000#16 0xBEEF#16) ∧
    decode 0x412340000#35 = .ok (.init 0x1234#16) ∧
    decode 0x512340000#35 = .ok (.reset 0x1234#16) ∧
    decode 0x612340000#35 = .ok (.deinit 0x1234#16) := by decide
/-! ### Address decode: both sides of every region boundary (95_test_vectors.md section 2.1) -/

theorem test_region_bounds :
    [0x0000#16, 0x3FFF#16, 0x4000#16, 0x7FFF#16, 0x8000#16, 0x9FFF#16, 0xA000#16, 0xBFFF#16,
      0xC000#16, 0xCFFF#16, 0xD000#16, 0xDFFF#16].map regionId =
    [0#4, 0#4, 1#4, 1#4, 2#4, 2#4, 3#4, 3#4, 4#4, 4#4, 5#4, 5#4] := by decide

theorem test_region_bounds_high :
    [0xE000#16, 0xEFFF#16, 0xF000#16, 0xFDFF#16, 0xFE00#16, 0xFE9F#16, 0xFEA0#16, 0xFEFF#16,
      0xFF00#16, 0xFF7F#16, 0xFF80#16, 0xFFFE#16, 0xFFFF#16].map regionId =
    [6#4, 6#4, 6#4, 6#4, 7#4, 7#4, 8#4, 8#4, 9#4, 9#4, 10#4, 10#4, 11#4] := by decide

theorem test_region_sel :
    [0x0000#16, 0x8000#16, 0xFDFF#16, 0xFEA0#16, 0xFFFF#16].map regionSel =
    [0x001#12, 0x004#12, 0x040#12, 0x100#12, 0x800#12] := by decide

/-! ### Loads and stores (95_test_vectors.md section 2.2) -/

/-- V2. -/
theorem test_ld8_rom0 : rsp? (exec (.ld8Rom0 0x0147#16) s1) = some 0x0001#16 := by decide

/-- V8 and E1: bank 0 is fixed. -/
theorem test_ld8_rom0_at_bank_three :
    rsp? (exec (.ld8Rom0 0x0147#16) (type5At 3#7 0xC000#21)) = some 0x0019#16 := by decide

/-- V5. -/
theorem test_ld8_romN : rsp? (exec (.ld8RomN 0x7FFF#16) s1) = some 0x0001#16 := by decide

/-- V7: the switched window. -/
theorem test_ld8_romN_at_bank_three :
    rsp? (exec (.ld8RomN 0x4000#16) (type5At 3#7 0xC000#21)) = some 0x0003#16 := by decide

/-- V11. -/
theorem test_ld8_vram :
    (out? (exec (.ld8Vram 0x8123#16) (s1.withPins (pins 0xAB#8 0 true)))).map
      (fun o => (o.vramRe, o.vramOff, o.rspRdata, o.vramNotify, o.calls)) =
    some (true, 0x0123#13, 0x00AB#16, false, [.vramRead 0x0123#13]) := by decide

/-- V12. -/
theorem test_st8_vram :
    (out? (exec (.st8Vram 0x9FFF#16 0x5A#8) s1)).map
      (fun o => (o.vramWe, o.vramOff, o.vramWdata, o.vramNotify, o.calls)) =
    some (true, 0x1FFF#13, 0x5A#8, true, [.vramWrite 0x1FFF#13 0x5A#8, .vramNotify 0x1FFF#13]) := by
  decide

/-- V14 and V15. -/
theorem test_extram :
    report? (exec (.ld8Extram 0xA000#16) s1) = some (.none, 0#7, .unimplExtram, 0xA000#16) ∧
    report? (exec (.st8Extram 0xBFFF#16 0x12#8) s1) =
      some (.none, 0#7, .unimplExtram, 0xBFFF#16) := by decide

/-- V17: the last byte of bank 0. -/
theorem test_st8_wram0 :
    (next? (exec (.st8Wram0 0xCFFF#16 0x22#8) s1)).map (fun t => t.readWram 0x0FFF) =
    some (.ok 0x22#8) := by decide

/-- V16, read back from a state that holds the byte. -/
theorem test_ld8_wram0 :
    rsp? (exec (.ld8Wram0 0xC000#16)
      (s1.withWram (some { cells := [(0x0000, 0x11#8)], fill := .free 1 }))) = some 0x0011#16 := by
  decide

/-- V19: the last byte of bank N. -/
theorem test_st8_wramN :
    (next? (exec (.st8WramN 0xDFFF#16 0x44#8) s1)).map (fun t => t.readWram 0x1FFF) =
    some (.ok 0x44#8) := by decide

/-- V34: bank N overlaps bank 0 under WRAM_BANK_N_OFFSET = 0x0800. -/
theorem test_st8_wramN_at_offset :
    (next? (exec (.st8WramN 0xD010#16 0x99#8) (sessionWramN 0x0800#13))).map
      (fun t => (t.readWram 0x0810, rsp? (exec (.ld8Wram0 0xC810#16) t))) =
    some (.ok 0x99#8, some 0x0099#16) := by decide

/-- V18 and E8, form A: 0xE010 and 0xF010 read bank N, not bank 0. -/
theorem test_echo_loads :
    let s := s1.withWram
      (some { cells := [(0x0010, 0x42#8), (0x1010, 0x99#8), (0x1DFF, 0x66#8)], fill := .free 1 })
    [exec (.ld8WramN 0xD010#16) s, exec (.ld8Echo0 0xE010#16) s, exec (.ld8Echo1 0xF010#16) s,
      exec (.ld8Echo3 0xFDFF#16) s].map rsp? =
    [some 0x0099#16, some 0x0099#16, some 0x0099#16, some 0x0066#16] := by decide

/-- V20 and V21: stores through the echo reach bank N. -/
theorem test_echo_stores :
    [exec (.st8Echo1 0xF000#16 0x55#8) s1, exec (.st8Echo0 0xE000#16 0x55#8) s1].map
      (fun r => (next? r).map (fun t => t.readWram 0x1000)) =
      [some (.ok 0x55#8), some (.ok 0x55#8)] ∧
    (next? (exec (.st8Echo3 0xFDFF#16 0x66#8) s1)).map (fun t => t.readWram 0x1DFF) =
      some (.ok 0x66#8) ∧
    (next? (exec (.st8Echo2 0xF800#16 0x66#8) s1)).map (fun t => t.readWram 0x1800) =
      some (.ok 0x66#8) := by decide

/-- V23 and V24. -/
theorem test_oam :
    report? (exec (.ld8Oam0 0xFE00#16) s1) = some (.none, 0#7, .unimplOam, 0xFE00#16) ∧
    report? (exec (.st8Oam1 0xFE9F#16 0x01#8) s1) = some (.none, 0#7, .unimplOam, 0xFE9F#16) := by
  decide

/-- V25 and V26. -/
theorem test_unusable :
    out? (exec (.ld8Unusable0 0xFEA0#16) s1) = some (idleOut 0xFEA0#16) ∧
    out? (exec (.st8Unusable1 0xFEFF#16 0x01#8) s1) = some (idleOut 0xFEFF#16) := by decide

/-- V27 and V32. -/
theorem test_ld8_io_ie :
    (out? (exec (.ld8Io 0xFF44#16) (s1.withPins (pins 0 0x90#8 true)))).map
      (fun o => (o.ioRe, o.ioId, o.rspRdata)) = some (true, 0x44#8, 0x0090#16) ∧
    (out? (exec (.ld8Ie 0xFFFF#16) (s1.withPins (pins 0 0x1F#8 true)))).map
      (fun o => (o.ioRe, o.ioId, o.rspRdata)) = some (true, 0xFF#8, 0x001F#16) := by decide

/-- V28, and V33 with IE_REG_ID = 0x0F. -/
theorem test_st8_io_ie :
    (out? (exec (.st8Io 0xFF7F#16 0x01#8) s1)).map (fun o => (o.ioWe, o.ioId, o.ioWdata)) =
      some (true, 0x7F#8, 0x01#8) ∧
    (out? (exec (.st8Ie 0xFFFF#16 0x01#8)
      { s1 with config := { s1.config with ieRegId := 0x0F#8 } })).map
      (fun o => (o.ioWe, o.ioId, o.ioWdata)) = some (true, 0x0F#8, 0x01#8) := by decide

/-- V29: zero right after RESET, at both ends. -/
theorem test_ld8_hram :
    [exec (.ld8Hram0 0xFF80#16) s1, exec (.ld8Hram6 0xFFFE#16) s1].map rsp? =
    [some 0x0000#16, some 0x0000#16] := by decide

/-- V30, and that storing zero again leaves the memory as it was (canonical form). -/
theorem test_st8_hram :
    (next? (exec (.st8Hram6 0xFFFE#16 0xEE#8) s1)).map (fun t => t.hram.cells) =
      some [(0x7E, 0xEE#8)] ∧
    (next? (exec (.st8Hram0 0xFF80#16 0x00#8)
      (s1.withHram { cells := [(0, 0xC3#8)], fill := .zero }))).map (fun t => t.hram.cells) =
      some [] := by decide

/-- The index check of high RAM, on an ill-formed address. -/
theorem test_hram_index_fault :
    fault? (exec (.ld8Hram6 0xFFFF#16) s1) = some .hramIndexOutOfRange := by decide

/-- Section 2.7. -/
theorem test_wide :
    report? (exec (.ld16 0xC000#16) s1) = some (.none, 0#7, .unimplWide, 0xC000#16) ∧
    report? (exec (.st16 0x2000#16 0x0002#16) s1) = some (.none, 0#7, .unimplWide, 0x2000#16) ∧
    refusal? (exec (.ld16 0xC000#16)
      { s1 with config := { s1.config with strictUnimpl := true } }) = some .strictUnimpl := by decide

/-! ### The Bank Controller (sections 2.3 to 2.6) -/

theorem test_bank_t1 :
    [0x00#8, 0x02#8, 0x1F#8, 0x20#8, 0x3F#8, 0x80#8, 0xE0#8, 0xFF#8].map
      (fun v => (bankT1 v 1#7, bankT1 v 0x61#7)) =
    [(1#7, 97#7), (2#7, 98#7), (31#7, 127#7), (1#7, 97#7), (31#7, 127#7), (1#7, 97#7), (1#7, 97#7),
      (31#7, 127#7)] := by decide

theorem test_bank_t3_t5 :
    [0x00#8, 0x01#8, 0x20#8, 0x7F#8, 0x80#8, 0x81#8, 0xFF#8].map (fun v => (bankT3 v, bankT5 v)) =
    [(1#7, 0#7), (1#7, 1#7), (32#7, 32#7), (127#7, 127#7), (1#7, 0#7), (1#7, 1#7), (127#7, 127#7)] := by
  decide

/-- Section 2.4: bank, ROM_SIZE, the registers after; one byte short, exact, and the largest bank. -/
theorem test_trySwitch_edges :
    [(0x8000, 0#7), (0x8000, 1#7), (0x8000, 2#7), (0xBFFF, 2#7), (0xC000, 2#7), (0xC001, 2#7),
      (0x1FFFFF, 127#7), (0x200000, 127#7), (0x400000, 127#7)].map
      (fun p =>
        let t := trySwitch 0x2000#16 p.2 (session p.1 0x19#8)
        (t.out.bsrCode, t.currentBank, t.romBankBase)) =
    [(.applied, 0#7, 0x0000#21), (.applied, 1#7, 0x4000#21), (.rejected, 1#7, 0x4000#21),
      (.rejected, 1#7, 0x4000#21), (.applied, 2#7, 0x8000#21), (.applied, 2#7, 0x8000#21),
      (.rejected, 1#7, 0x4000#21), (.applied, 127#7, 0x1FC000#21), (.applied, 127#7, 0x1FC000#21)] := by
  decide

/-- Section 2.6, slot 1 of each variant. -/
theorem test_st8_mbc_s1 :
    [0x00#8, 0x01#8, 0x05#8, 0x11#8, 0x15#8, 0x19#8].map
      (fun t => report? (exec (.st8MbcS1 0x2000#16 0x02#8) (session 0x10000 t))) =
    [some (.noop, 0#7, .unimplRamen, 0x2000#16), some (.applied, 2#7, .none, 0#16),
      some (.noop, 0#7, .unimplMbc, 0x2000#16), some (.applied, 2#7, .none, 0#16),
      some (.noop, 0#7, .unimplMbc, 0x2000#16), some (.applied, 2#7, .none, 0#16)] := by decide

/-- E9: the rejected switch of the source's scenario. -/
theorem test_st8_mbc_s1_rejected :
    report? (exec (.st8MbcS1 0x2100#16 0x02#8) (session 0x8000 0x01#8)) =
      some (.rejected, 2#7, .bankOor, 0x0002#16) ∧
    bank? (exec (.st8MbcS1 0x2100#16 0x02#8) (session 0x8000 0x01#8)) =
      some (1#7, 0x4000#21) := by decide

/-- Section 2.6, slot 0 of each variant. -/
theorem test_st8_mbc_s0 :
    [0x00#8, 0x01#8, 0x05#8, 0x11#8, 0x15#8, 0x19#8].map
      (fun t => report? (exec (.st8MbcS0 0x1FFF#16 0x02#8) (session 0x10000 t))) =
    [some (.noop, 0#7, .unimplRamen, 0x1FFF#16), some (.noop, 0#7, .unimplRamen, 0x1FFF#16),
      some (.noop, 0#7, .unimplMbc, 0x1FFF#16), some (.noop, 0#7, .unimplRamen, 0x1FFF#16),
      some (.noop, 0#7, .unimplMbc, 0x1FFF#16), some (.noop, 0#7, .unimplRamen, 0x1FFF#16)] := by
  decide

/-- Section 2.6, slots 2 and 3 of Type1, Type3 and Type5: no diagnostic. -/
theorem test_st8_mbc_s2_s3 :
    [0x01#8, 0x11#8, 0x19#8].map
      (fun t => report? (exec (.st8MbcS2 0x4000#16 0x02#8) (session 0x10000 t))) =
      [some (.noop, 0#7, .none, 0#16), some (.noop, 0#7, .none, 0#16),
        some (.noop, 0#7, .none, 0#16)] ∧
    report? (exec (.st8MbcS3 0x7FFF#16 0x02#8) (session 0x10000 0x19#8)) =
      some (.noop, 0#7, .none, 0#16) := by decide

/-! ### The lifecycle operations (sections 2.5 and 2.8) -/

/-- Section 2.5. -/
theorem test_header_table :
    [0x00#8, 0x01#8, 0x03#8, 0x04#8, 0x05#8, 0x06#8, 0x07#8, 0x08#8, 0x09#8, 0x0A#8, 0x0E#8, 0x0F#8,
      0x13#8, 0x14#8, 0x15#8, 0x17#8, 0x18#8, 0x19#8, 0x1E#8, 0x1F#8, 0xFF#8].map
      (fun t => (controllerTag (variantOf t), isFallback t)) =
    [(0#3, false), (1#3, false), (1#3, false), (5#3, true), (2#3, false), (2#3, false), (5#3, true),
      (0#3, false), (0#3, false), (5#3, true), (5#3, true), (3#3, false), (3#3, false), (5#3, true),
      (4#3, false), (4#3, false), (5#3, true), (5#3, false), (5#3, false), (5#3, true),
      (5#3, true)] := by decide

/-- L-8, and P4 step 2: a second RESET, with an unknown type byte. -/
theorem test_reset :
    (next? (exec (.reset 0x0000#16)
      ((type5At 3#7 0xC000#21).withRom (some (img 0x10000 0x20#8)) |>.withHram
        { cells := [(0, 0xC3#8)], fill := .zero }))).map
      (fun t => decide (t.controllerType = .type5 ∧ t.currentBank = 1#7 ∧ t.romBankBase = 0x4000#21 ∧
        t.readHram 0 = .ok 0x00#8 ∧ t.out.resetStatus = .ok ∧ t.out.diagCode = .unknownCartType ∧
        t.out.diagInfo = 0x0020#16)) = some true := by decide

/-- L-5, and L-3 and L-4. -/
theorem test_reset_fails_or_is_refused :
    (next? (exec (.reset 0x0000#16) (s1.withPins (pins 0 0 false)))).map
      (fun t => (t.active, t.wram.isNone, t.out.resetStatus, t.out.diagCode)) =
      some (false, true, .fail, .resetAllocFail) ∧
    refusal? (exec (.reset 0x0000#16) (s1.withRom (some (img 0x7FFF 0x01#8)))) = some .romTooSmall ∧
    refusal? (exec (.reset 0x0000#16) (s1.withRom none)) = some .romTooSmall := by decide

/-- L-2 and L-9. -/
theorem test_init :
    (next? (exec (.init 0x0000#16) s1)).map
      (fun t => decide (t.controllerType = .typeNone ∧ t.currentBank = 0#7 ∧ t.romBankBase = 0#21 ∧
        t.workingRamBankBase = 0#13 ∧ t.active = false ∧
        refusal? (exec (.ld8Wram0 0xC000#16) t) = some .noSession)) = some true := by decide

/-- L-10: the next RESET needs an image again. -/
theorem test_deinit :
    (next? (exec (.deinit 0x0000#16) s1)).map
      (fun t => (t.active, t.rom.isNone, t.wram.isNone, refusal? (exec (.reset 0x0000#16) t))) =
    some (false, true, true, some .romTooSmall) := by decide

/-! ### The step -/

/-- The source's store, presented as a word: one step, and the word is taken from the inputs. -/
theorem test_step_runs_word :
    (next? (step (s1.withFetchWord 35 0x121000003))).map
      (fun t => (t.currentBank, t.romBankBase, t.inputs)) = some (3#7, 0xC000#21, []) := by decide

/-- L-12 and L-13. -/
theorem test_step_refuses_reserved_op_and_idles :
    refusal? (step (s1.withFetchWord 35 0x700000000)) = some .reservedOp ∧
    next? (step s1) = some s1 := by decide

/-- R225: the diagnostic of V14 is over in the idle cycle after it; R101: the other outputs stay. -/
theorem test_step_idle_ends_diagnostic :
    (next? (exec (.ld8Extram 0xA000#16) s1)).map (fun t => out? (step t)) =
    some (some { idleOut 0xA000#16 with rspRdata := 0x0000#16 }) := by decide

/-- V34 in two steps: a store through bank N, read through bank 0, WRAM_BANK_N_OFFSET = 0x0800. -/
theorem test_run_overlapping_windows :
    rsp? (Host.Core.run Sys2Proof.core 2 ((sessionWramN 0x0800#13).withInputs
      [.cycle (cycleOf 0x1D0100099#35), .cycle (cycleOf 0x0C8100000#35)])) = some 0x0099#16 := by decide

/-- The loader: refused between a RESET and the next DEINIT (R261). -/
theorem test_step_loader :
    refusal? (step (s1.withInputs [.loadImage (img 0x8000 0x00#8)])) = some .imageLocked := by decide

/-! ### States and operands that meet the hypotheses of each statement -/

/-- `bankAllowed` as a check. -/
def bankAllowedB (ct : Controller) (b : BitVec 7) : Bool :=
  match ct with
  | .type1 => decide (1 ≤ b.toNat) && decide (b.toNat ≤ 31)
  | .type3 => decide (1 ≤ b.toNat)
  | .type5 => true
  | _ => decide (b = 1#7)

theorem bankAllowed_of_check {ct : Controller} {b : BitVec 7} (h : bankAllowedB ct b = true) :
    bankAllowed ct b := by
  cases ct <;> simp_all [bankAllowedB, bankAllowed]

/-- The invariant of an active session, as a check that evaluates. -/
def checkInv (s : State) : Bool :=
  match s.rom, s.wram with
  | some r, some { cells := c, fill := .free n } =>
    s.config.wf && Rom.wf r && Block.wf wramSize { cells := c, fill := .free n } &&
      Block.wf hramSize s.hram && s.inputs.all Input.wf && decide (minRomSize ≤ r.size) &&
      decide (s.romBankBase.toNat + romBankSize ≤ r.size) &&
      decide (s.romBankBase.toNat = s.currentBank.toNat * romBankSize) &&
      decide (s.controllerType = variantOf (Rom.byte r cartTypeOffset)) &&
      bankAllowedB s.controllerType s.currentBank &&
      decide (s.workingRamBankBase = s.config.wramBankNOffset) && decide (s.hram.fill = .zero) &&
      s.romLocked
  | _, _ => false

theorem inv_of_check {s : State} (h : checkInv s = true) : s.Inv := by
  unfold checkInv at h
  split at h
  · next r c n hr hw =>
    simp only [Bool.and_eq_true, decide_eq_true_eq, List.all_eq_true] at h
    obtain ⟨⟨⟨⟨⟨⟨⟨⟨⟨⟨⟨⟨h1, h2⟩, h3⟩, h4⟩, h5⟩, h6⟩, h7⟩, h8⟩, h9⟩, h10⟩, h11⟩, h12⟩, h13⟩ := h
    have hz : s.romSize = r.size := romSize_of_some hr
    refine ⟨by simpa using h1, ?_, ?_, h4, h5, fun _ => ⟨by rw [hz]; exact h6, ⟨_, n, hw, rfl⟩, by rw [hz]; exact h7,
      h8, ?_, bankAllowed_of_check h10, h11, h12, h13⟩⟩
    · intro r' hr'; rw [hr] at hr'; cases hr'; exact h2
    · intro b hb; rw [hw] at hb; cases hb; exact h3
    · rw [h9, State.typeByte, hr]
  · cases h

theorem test_witness_s1 : s1.Inv ∧ s1.active = true ∧ s1.config.strictUnimpl = false :=
  ⟨inv_of_check (by decide), by decide, by decide⟩

/-- DecodeOfEncodeIsIdentity, EveryAdmittedRequestCompletes, FetchedWordRunsNext. -/
theorem test_witness_wellFormed : WellFormed (.ld8Oam1 0xFE9F#16) ∧ WellFormed (.st8Hram6 0xFFFE#16 0xEE#8) ∧
    WellFormed (.st16 0xFFFF#16 0xBEEF#16) := by decide

/-- EveryRequestSelectsExactlyOneRow; ReservedOpHasNoStep: its state, cycle and word. -/
theorem test_witness_reqOp : reqOp 0x600000000#35 ≠ 0b111#3 ∧ reqOp 0x700000000#35 = 0b111#3 ∧
    (s1.withInputs [.cycle (cycleOf 0x700000000#35)]).inputs =
      .cycle (cycleOf 0x700000000#35) :: [] ∧ (cycleOf 0x700000000#35).reqValid = true := by decide

/-- DecodeReadsOnlyTheFieldsOfTheOperation: words that differ where the operation does not read, for
ST8 and for LD8, and an ST16 word. -/
theorem test_witness_ignored_fields :
    (reqOp 0x121001202#35 = reqOp 0x121000002#35 ∧ reqAddr 0x121001202#35 = reqAddr 0x121000002#35 ∧
      (reqWdata 0x121001202#35).toNat % 256 = (reqWdata 0x121000002#35).toNat % 256 ∧
      reqOp 0x121001202#35 = 0b001#3) ∧
    (reqOp 0x04000FFFF#35 = reqOp 0x040000000#35 ∧ reqAddr 0x04000FFFF#35 = reqAddr 0x040000000#35 ∧
      reqOp 0x04000FFFF#35 ≠ 0b001#3 ∧ reqOp 0x04000FFFF#35 ≠ 0b011#3) ∧
    reqOp 0x320000002#35 = 0b011#3 := by decide

/-- RegionSelectIsDrivenInEveryOperation, StrobesAgreeWithTheCalls, LoadsAndDelegatedStoresWriteNoBlockState:
requests that complete, one for each strobe and one of each lifecycle operation. -/
theorem test_witness_completes :
    ([exec (.ld8Vram 0x9FFF#16) s1, exec (.st8Vram 0x8000#16 0x00#8) s1, exec (.ld8Io 0xFF00#16) s1,
      exec (.st8Ie 0xFFFF#16 0x01#8) s1, exec (.st8Unusable0 0xFEA0#16 0xAB#8) s1,
      exec (.ld16 0xFFFF#16) s1, exec (.init 0x1234#16) s1, exec (.reset 0x1234#16) s1,
      exec (.deinit 0xFFFF#16) s1].map (fun r => (next? r).isSome)) = List.replicate 9 true := by decide

theorem test_witness_frame_premises :
    isLifecycle (.ld8Io 0xFF00#16) = false ∧ (∀ a v, (.ld8Io 0xFF00#16 : Instr) ∉ mbcStores a v) ∧
    (∀ a v, (.ld8Io 0xFF00#16 : Instr) ≠ .st8Wram0 a v) ∧
    (∀ a v, (.ld8Io 0xFF00#16 : Instr) ≠ .st8WramN a v) ∧
    (∀ a v, (.ld8Io 0xFF00#16 : Instr) ∉ echoStores a v) ∧
    (∀ a v, (.ld8Io 0xFF00#16 : Instr) ∉ hramStores a v) := by
  simp [isLifecycle, mbcStores, echoStores, hramStores]

/-- The load and store statements: an active session with an image and working RAM, its windows in range,
and the least image and the highest bank-N base. -/
theorem test_witness_session :
    s1.active = true ∧ s1.rom = some (img 0x10000 0x01#8) ∧ 0x8000 ≤ (img 0x10000 0x01#8).size ∧
    s1.romBankBase.toNat + 0x4000 ≤ (img 0x10000 0x01#8).size ∧
    s1.wram = some { cells := [], fill := .free 1 } ∧ s1.workingRamBankBase.toNat ≤ 0x1000 := by decide

theorem test_witness_session_least_image :
    (session 0x8000 0x01#8).rom = some (img 0x8000 0x01#8) ∧
    (session 0x8000 0x01#8).romBankBase.toNat + 0x4000 ≤ (img 0x8000 0x01#8).size ∧
    (sessionWramN 0#13).workingRamBankBase.toNat ≤ 0x1000 := by decide

/-- Membership in the lists of rows, at the ends of the echo and of high RAM; the echo address and the
bank-N address have the same low twelve bits. -/
theorem test_witness_rows :
    .ld8Echo0 0xE000#16 ∈ echoLoads 0xE000#16 ∧ .ld8Echo3 0xFDFF#16 ∈ echoLoads 0xFDFF#16 ∧
    .st8Echo3 0xFDFF#16 0x66#8 ∈ echoStores 0xFDFF#16 0x66#8 ∧
    .ld8WramN 0xDDFF#16 ∈ bankNLoads 0xDDFF#16 ∧ 0xDDFF#16 &&& 0x0FFF#16 = 0xFDFF#16 &&& 0x0FFF#16 ∧
    .ld8Hram0 0xFF80#16 ∈ hramLoads 0xFF80#16 ∧ WellFormed (.ld8Hram0 0xFF80#16) ∧
    .st8Hram6 0xFFFE#16 0xEE#8 ∈ hramStores 0xFFFE#16 0xEE#8 ∧
    WellFormed (.st8Hram6 0xFFFE#16 0xEE#8) ∧ s1.hram = { cells := [], fill := .zero } := by decide

/-- WideAccessIsAPlaceholder: both settings of STRICT_UNIMPL. -/
theorem test_witness_strict :
    s1.config.strictUnimpl = false ∧
    ({ s1 with config := { s1.config with strictUnimpl := true } } : State).config.strictUnimpl = true ∧
    ({ s1 with config := { s1.config with strictUnimpl := true } } : State).active = true := by decide

/-- TrySwitchRejectsOrApplies: one byte short, and exact. -/
theorem test_witness_trySwitch :
    (2#7).toNat * 0x4000 + 0x4000 > (session 0xBFFF 0x19#8).romSize ∧
    (2#7).toNat * 0x4000 + 0x4000 ≤ (session 0xC000 0x19#8).romSize := by decide

/-- The controller statements: a session of each variant, and the slots' first and last addresses. -/
theorem test_witness_variants :
    ([0x00#8, 0x01#8, 0x05#8, 0x11#8, 0x15#8, 0x19#8].map
      (fun t => ((session 0x8000 t).active, (session 0x8000 t).controllerType))) =
    [(true, .typeNone), (true, .type1), (true, .type2), (true, .type3), (true, .type4), (true, .type5)] := by
  decide

theorem test_witness_slots :
    WellFormed (.st8MbcS0 0x0000#16 0x0A#8) ∧ WellFormed (.st8MbcS0 0x1FFF#16 0x0A#8) ∧
    WellFormed (.st8MbcS1 0x2000#16 0x00#8) ∧ WellFormed (.st8MbcS1 0x3FFF#16 0x80#8) ∧
    WellFormed (.st8MbcS2 0x4000#16 0x03#8) ∧ WellFormed (.st8MbcS2 0x5FFF#16 0x03#8) ∧
    WellFormed (.st8MbcS3 0x6000#16 0x01#8) ∧ WellFormed (.st8MbcS3 0x7FFF#16 0x01#8) ∧
    .st8MbcS3 0x7FFF#16 0x01#8 ∈ mbcStores 0x7FFF#16 0x01#8 ∧
    .st8MbcS1 0x2000#16 0x00#8 ∈ mbcStores 0x2000#16 0x00#8 := by decide

/-- The invariant in a session of each variant, of the least image, and at banks 0 and 3 of Type5. -/
theorem test_witness_inv_variants :
    (session 0x8000 0x00#8).Inv ∧ (session 0x8000 0x01#8).Inv ∧ (session 0x8000 0x05#8).Inv ∧
    (session 0x8000 0x11#8).Inv ∧ (session 0x8000 0x15#8).Inv ∧ (session 0x8000 0x19#8).Inv ∧
    (type5At 0#7 0#21).Inv ∧ (type5At 3#7 0xC000#21).Inv :=
  ⟨inv_of_check (by decide), inv_of_check (by decide), inv_of_check (by decide),
    inv_of_check (by decide), inv_of_check (by decide), inv_of_check (by decide),
    inv_of_check (by decide), inv_of_check (by decide)⟩

/-- Type5SlotOneAcceptsBankZero, TrySwitchIdempotenceAndRange and BankZeroRulesByVariant: values with zero
select bits, a 32768-byte image, and a slot-1 store that completes. -/
theorem test_witness_zero_select :
    (0x80#8).toNat % 128 = 0 ∧ (0xE0#8).toNat % 32 = 0 ∧ (session 0x8000 0x19#8).romSize = 32768 ∧
    (next? (exec (.st8MbcS1 0x2000#16 0x80#8) (session 0x8000 0x19#8))).isSome = true ∧
    (next? (exec (.st8MbcS1 0x3FFF#16 0xE0#8) (session 0x8000 0x01#8))).isSome = true ∧
    (next? (exec (.st8MbcS1 0x3FFF#16 0x80#8) (session 0x8000 0x11#8))).isSome = true ∧
    (next? (exec (.st8MbcS1 0x2000#16 0x00#8) (session 0x8000 0x00#8))).isSome = true := by decide

/-- ControllerWritesTouchOnlyTheBankRegisters and OnlyTheListedRequestsWriteRegisters: an applied switch
that moves both registers, and a rejected one that moves neither. -/
theorem test_witness_applied_and_rejected :
    (next? (exec (.st8MbcS1 0x2000#16 0x03#8) s1)).map (fun t => (t.out.bsrCode, t.currentBank)) =
      some (.applied, 3#7) ∧
    (next? (exec (.st8MbcS1 0x2000#16 0x04#8) s1)).map (fun t => (t.out.bsrCode, t.currentBank)) =
      some (.rejected, 1#7) ∧
    isLifecycle (.st8MbcS1 0x2000#16 0x03#8) = false := by decide

/-- ResetSelectsTheVariantOfTheHeader and ResetFollowsItsProcedure: the three cases of the image and of
`alloc_ok`, and type bytes at the ends of every group of the table. -/
theorem test_witness_reset_cases :
    s1.pins.allocOk = true ∧ (s1.withPins (pins 0 0 false)).pins.allocOk = false ∧
    (s1.withRom none).rom = none ∧ (s1.withRom (some (img 0x7FFF 0x01#8))).romSize < 0x8000 ∧
    ([0x00#8, 0x01#8, 0x03#8, 0x05#8, 0x06#8, 0x08#8, 0x09#8, 0x0F#8, 0x13#8, 0x15#8, 0x17#8, 0x19#8,
      0x1E#8, 0x04#8, 0x07#8, 0x0A#8, 0x0E#8, 0x14#8, 0x18#8, 0x1F#8, 0xFF#8].all
      (fun t => decide (Rom.byte (img 0x8000 t) 0x147 = t) &&
        decide (0x8000 ≤ (img 0x8000 t).size))) = true := by decide

/-- ResetForgetsTheOldSession: two sessions that differ in bank, working RAM and high RAM. -/
theorem test_witness_two_sessions :
    let s := type5At 0#7 0#21
    let s' := (type5At 3#7 0xC000#21).withHram { cells := [(0, 0xC3#8)], fill := .zero }
    s.config = s'.config ∧ s.rom = s'.rom ∧ s.pins = s'.pins ∧ s.inputs = s'.inputs ∧
      s.draws = s'.draws ∧ s ≠ s' := by decide

/-- NoSessionRefusesEveryAccess: no session; and each lifecycle operation that reports no OK. -/
theorem test_witness_no_session :
    ({ s1 with active := false } : State).active = false ∧ isLifecycle (.ld8Rom0 0x0000#16) = false ∧
    ([exec (.init 0x0000#16) s1, exec (.deinit 0x0000#16) s1,
      exec (.reset 0x0000#16) (s1.withPins (pins 0 0 false))].map
      (fun r => (out? r).map (fun o => decide (o.resetStatus ≠ .ok)))) =
      [some true, some true, some true] ∧
    isLifecycle (.init 0x0000#16) = true ∧ isLifecycle (.deinit 0x0000#16) = true ∧
    isLifecycle (.reset 0x0000#16) = true := by decide

/-- InvariantIsKeptByEveryStep, NoStepFaults, TheImageIsConstantUntilDeinit: a state that meets the
invariant, holds the image locked, and steps: a load, and the DEINIT that releases the image.
DiagnosticIsVisibleOnlyInItsRequestsCycle: a step after which a diagnostic stands. -/
theorem test_witness_step :
    (s1.withInputs [.cycle (cycleOf 0x0FFFE0000#35)]).Inv ∧
    (s1.withInputs [.cycle (cycleOf 0x0FFFE0000#35)]).romLocked = true ∧
    (next? (step (s1.withInputs [.cycle (cycleOf 0x0FFFE0000#35)]))).isSome = true ∧
    (next? (step (s1.withInputs [.cycle (cycleOf 0x600000000#35)]))).isSome = true ∧
    decode 0x600000000#35 = .ok (.deinit 0x0000#16) ∧
    (out? (step (s1.withInputs [.cycle (cycleOf 0x0A0000000#35)]))).map Outputs.diagValid = some true :=
  ⟨inv_of_check (by decide), by decide, by decide, by decide, by decide, by decide⟩

/-- StepRunsTheDecodedRequest: a cycle whose word decodes. -/
theorem test_witness_step_word :
    (s1.withInputs [.cycle (cycleOf 0x121000002#35)]).inputs =
      .cycle (cycleOf 0x121000002#35) :: [] ∧ (cycleOf 0x121000002#35).reqValid = true ∧
    decode (cycleOf 0x121000002#35).word = .ok (.st8MbcS1 0x2100#16 0x02#8) := by decide

/-- IdleCyclesAndTheLoader: no input, an idle cycle, and the loader before and after a RESET. -/
theorem test_witness_inputs :
    s1.inputs = [] ∧ ({ cycleOf 0#35 with reqValid := false } : Cycle).reqValid = false ∧
    s1.romLocked = true ∧
    (next? (exec (.deinit 0x0000#16) (s1.withInputs [.loadImage (img 0x8000 0x00#8)]))).map
      (fun t => (t.romLocked, t.inputs)) = some (false, [.loadImage (img 0x8000 0x00#8)]) := by decide

/-- BankSwitchIsSeenByTheNextLoad: the two words, in a session where the first is applied (bank 3) and
one where it is rejected (bank 4). -/
theorem test_witness_switch_then_load :
    (s1.withInputs [.cycle (cycleOf 0x120000003#35), .cycle (cycleOf 0x040000000#35)]).Inv ∧
    (s1.withInputs [.cycle (cycleOf 0x120000004#35), .cycle (cycleOf 0x07FFF0000#35)]).Inv ∧
    decode (cycleOf 0x120000003#35).word = .ok (.st8MbcS1 0x2000#16 0x03#8) ∧
    decode (cycleOf 0x120000004#35).word = .ok (.st8MbcS1 0x2000#16 0x04#8) ∧
    decode (cycleOf 0x040000000#35).word = .ok (.ld8RomN 0x4000#16) ∧
    decode (cycleOf 0x07FFF0000#35).word = .ok (.ld8RomN 0x7FFF#16) :=
  ⟨inv_of_check (by decide), inv_of_check (by decide), by decide, by decide, by decide, by decide⟩

/-- AddressAliasesReadTheSameByte: the window at 0, and the bank-N base 0. -/
theorem test_witness_aliases :
    (type5At 0#7 0#21).Inv ∧ (type5At 0#7 0#21).romBankBase = 0#21 ∧ (type5At 0#7 0#21).active = true ∧
    (sessionWramN 0#13).Inv ∧ (sessionWramN 0#13).workingRamBankBase = 0#13 ∧
    (sessionWramN 0#13).active = true ∧ 0xF010#16 &&& 0x0FFF#16 = 0xC010#16 &&& 0x0FFF#16 :=
  ⟨inv_of_check (by decide), by decide, by decide, inv_of_check (by decide), by decide, by decide,
    by decide⟩

/-- StoresAreSeenByTheNextRequest: the words of its cases, at the last byte of bank 0, the last echo address
and the last byte of high RAM, and across the two windows of working RAM in both directions. -/
theorem test_witness_store_then_load :
    (s1.withInputs [.cycle (cycleOf 0x1CFFF0022#35), .cycle (cycleOf 0x0CFFF0000#35)]).Inv ∧
    decode 0x1CFFF0022#35 = .ok (.st8Wram0 0xCFFF#16 0x22#8) ∧
    decode 0x0CFFF0000#35 = .ok (.ld8Wram0 0xCFFF#16) ∧
    decode 0x1FDFF0066#35 = .ok (.st8Echo3 0xFDFF#16 0x66#8) ∧
    decode 0x0DDFF0000#35 = .ok (.ld8WramN 0xDDFF#16) ∧
    wramNOffset s1 0xFDFF#16 = wramNOffset s1 0xDDFF#16 ∧
    (sessionWramN 0x0800#13).Inv ∧
    wramNOffset (sessionWramN 0x0800#13) 0xD010#16 = wram0Offset 0xC810#16 ∧
    .ld8WramN 0xD010#16 ∈ bankNLoads 0xD010#16 ∧ hramIndex 0xFFFE#16 = 0x7E ∧
    decode 0x1FFFE00EE#35 = .ok (.st8Hram6 0xFFFE#16 0xEE#8) ∧
    decode 0x0FFFE0000#35 = .ok (.ld8Hram6 0xFFFE#16) :=
  ⟨inv_of_check (by decide), by decide, by decide, by decide, by decide, by decide,
    inv_of_check (by decide), by decide, by decide, by decide, by decide, by decide⟩

end Sys2Proof.Tests
end

/-! PROOFS. The reserved op value and the assembly of bank numbers (30_encoding.md R93, R97). -/

namespace Sys2Proof

/-! ### The reserved op (R93) -/

theorem reqOp_and (w m : RequestWord) : reqOp (w &&& m) = reqOp w &&& reqOp m :=
  BitVec.extractLsb'_and

/-- Every row's mask keeps the whole op field. -/
theorem opcodeRows_mask_op : ∀ r ∈ opcodeRows, reqOp r.mask = 0b111#3 := by decide

/-- No row has the op value 111. -/
theorem opcodeRows_pattern_op : ∀ r ∈ opcodeRows, reqOp r.pattern ≠ 0b111#3 := by decide

/-- A word that selects a row of the table has that row's op. -/
theorem reqOp_of_selects {r : Row} {w : RequestWord} (hm : r ∈ opcodeRows)
    (hs : r.selects w = true) : reqOp w = reqOp r.pattern := by
  have hp : w &&& r.mask = r.pattern := by simpa [Row.selects] using hs
  calc reqOp w = reqOp w &&& 0b111#3 := (BitVec.and_allOnes (x := reqOp w)).symm
    _ = reqOp (w &&& r.mask) := by rw [reqOp_and, opcodeRows_mask_op r hm]
    _ = reqOp r.pattern := by rw [hp]

/-- A word that selects no row of the table is rejected. -/
theorem decode_eq_error {w : RequestWord} (h : ∀ r ∈ opcodeRows, ¬ r.selects w = true) :
    decode w = .error .reservedOp := by
  simp [decode, List.find?_eq_none.2 h]

theorem decode_reservedOp {w : RequestWord} (h : reqOp w = 0b111#3) :
    decode w = .error .reservedOp :=
  decode_eq_error fun r hm hs => opcodeRows_pattern_op r hm ((reqOp_of_selects hm hs).symm.trans h)

end Sys2Proof

namespace Sys2Proof.Machine

/-- A presented word that the decoder rejects has no step. -/
theorem step_of_decode_error {s : State} {c : Cycle} {l : List Input} {e : Rejection}
    (hi : s.inputs = .cycle c :: l) (hv : c.reqValid = true) (hd : decode c.word = .error e) :
    step s = refuseWord e := by
  simp only [step, takeInput_request hi hv, hd]

/-- Settles O4: every row's mask keeps the op field and no row's op is 111, so no row is found. -/
theorem reservedOpHasNoStep : Obligations.ReservedOpHasNoStep := by
  intro w hw
  have hd := decode_reservedOp hw
  exact ⟨hd, fun _ _ _ hi hv hc => step_of_decode_error hi hv (hc ▸ hd)⟩

/-! ### Bank-number assembly (R97) -/

theorem bankT5_toNat (v : Byte) : (bankT5 v).toNat = v.toNat % 128 := by
  simp [bankT5, BitVec.extractLsb'_toNat]

/-- Forcing 0 to 1, as a number. -/
theorem toNat_ite_zero_one {n : Nat} (hn : 1 < 2 ^ n) (b : BitVec n) :
    (if b = 0#n then 1#n else b).toNat = if b.toNat = 0 then 1 else b.toNat := by
  simp only [apply_ite BitVec.toNat, BitVec.toNat_eq, BitVec.toNat_ofNat, Nat.zero_mod,
    Nat.mod_eq_of_lt hn]

theorem bankT3_toNat (v : Byte) :
    (bankT3 v).toNat = if v.toNat % 128 = 0 then 1 else v.toNat % 128 := by
  have h : bankT3 v = if bankT5 v = 0#7 then 1#7 else bankT5 v := rfl
  rw [h, toNat_ite_zero_one (by decide), bankT5_toNat]

/-- Type1 keeps bits 6:5 of the previous bank above a field of five bits, so the OR is a sum. -/
theorem bankT1_toNat (v : Byte) (cb : BitVec 7) :
    (bankT1 v cb).toNat =
      (if v.toNat % 32 = 0 then 1 else v.toNat % 32) + 32 * (cb.toNat / 32) := by
  have hfield : ((v.extractLsb' 0 5).setWidth 7).toNat = v.toNat % 32 := by
    simp only [BitVec.toNat_setWidth, BitVec.extractLsb'_toNat, Nat.shiftRight_zero]; omega
  have hhigh : cb.toNat &&& 0x60 = 2 ^ 5 * (cb.toNat / 32) :=
    (and_highMask (k := 5) (by decide) cb.isLt).trans (Nat.mul_comm _ _)
  have hlow : (if v.toNat % 32 = 0 then 1 else v.toNat % 32) < 2 ^ 5 := by split <;> omega
  simp only [bankT1, BitVec.toNat_or, BitVec.toNat_and, toNat_ite_zero_one (n := 7) (by decide),
    hfield, BitVec.toNat_ofNat, hhigh]
  rw [Nat.or_comm, ← Nat.two_pow_add_eq_or_of_lt hlow, Nat.add_comm]

/-- Settles O28, variant by variant. -/
theorem bankNumberAssembly : Obligations.BankNumberAssembly :=
  fun v cb => ⟨bankT1_toNat v cb, bankT3_toNat v, bankT5_toNat v⟩

end Sys2Proof.Machine

/-! PROOFS. The load and store rules of the regions (40_decoder.md R122 to R145). -/

namespace Sys2Proof.Machine

/-! ### Admitted requests and their completion (R41, R120) -/

/-- In a session a request that writes no block state drives its outputs and nothing else. -/
theorem inSession_respond {s : State} (ha : s.active = true) (o : Outputs) :
    inSession s (respond s o) = .next (s.withOut o) :=
  inSession_active ha _

/-- In a session a load whose read succeeds returns that byte. -/
theorem inSession_completeLoad {s : State} {a : Addr} {x : Except Fault Byte} {v : Byte}
    (ha : s.active = true) (hx : x = .ok v) :
    inSession s (completeLoad s a x) = .next (s.withOut (loadOut a v)) :=
  inSession_next_iff.2 ⟨ha, completeLoad_next_iff.2 ⟨v, hx, rfl⟩⟩

/-- In a session a store whose write succeeds leaves the written state, its outputs idle. -/
theorem inSession_completeStore {s u : State} {a : Addr} {x : Except Fault State}
    (ha : s.active = true) (hx : x = .ok u) :
    inSession s (completeStore a x) = .next (u.withOut (idleOut a)) :=
  inSession_next_iff.2 ⟨ha, completeStore_next_iff.2 ⟨u, hx, rfl⟩⟩

theorem inSessionWide_respond {s : State} (ha : s.active = true)
    (hs : s.config.strictUnimpl = false) (o : Outputs) :
    inSessionWide s (respond s o) = .next (s.withOut o) :=
  inSessionWide_next_iff.2 ⟨ha, hs, rfl⟩

theorem inSessionWide_strict {s : State} (ha : s.active = true)
    (hs : s.config.strictUnimpl = true) (k : Result) :
    inSessionWide s k = .refused .strictUnimpl := by
  rw [inSessionWide, inSession_active ha, if_pos hs]

/-! ### The fields on the ports (R95) -/

theorem vramOffset_toNat (a : Addr) : (vramOffset a).toNat = a.toNat % 0x2000 := by
  simp [vramOffset, BitVec.extractLsb'_toNat]

theorem ioRegister_toNat (a : Addr) : (ioRegister a).toNat = a.toNat % 0x100 := by
  simp [ioRegister, BitVec.extractLsb'_toNat]

/-! ### The rows of one rule have one meaning -/

theorem exec_echoLoad {i : Instr} {a : Addr} (hi : i ∈ echoLoads a) (s : State) :
    exec i s = exec (.ld8WramN a) s := by
  simp only [echoLoads, List.mem_cons, List.not_mem_nil, or_false] at hi
  rcases hi with rfl | rfl | rfl | rfl <;> rfl

theorem exec_bankNLoad {i : Instr} {a : Addr} (hi : i ∈ bankNLoads a) (s : State) :
    exec i s = exec (.ld8WramN a) s := by
  rcases List.mem_cons.1 hi with rfl | hi
  · rfl
  · exact exec_echoLoad hi s

theorem exec_echoStore {i : Instr} {a : Addr} {v : Byte} (hi : i ∈ echoStores a v) (s : State) :
    exec i s = exec (.st8WramN a v) s := by
  simp only [echoStores, List.mem_cons, List.not_mem_nil, or_false] at hi
  rcases hi with rfl | rfl | rfl | rfl <;> rfl

/-- An address in a part of the HRAM region has an index below HRAM_SIZE. -/
theorem hramIndex_lt_of_inRange {a : Addr} {lo hi : Nat} (h : inRange lo hi a = true)
    (hlo : 0xFF80 ≤ lo) (hhi : hi ≤ 0xFFFE) : hramIndex a < hramSize := by
  obtain ⟨hl, hh⟩ := Laws.inRange_iff.1 h
  exact hramIndex_lt (hlo.trans hl) (hh.trans hhi)

/-- Every well-formed LD8.HRAM row is the load of high RAM, at an index in its range. -/
theorem exec_hramLoad {i : Instr} {a : Addr} (hi : i ∈ hramLoads a) (hw : WellFormed i) (s : State) :
    exec i s = loadHram a s ∧ hramIndex a < hramSize := by
  simp only [hramLoads, List.mem_cons, List.not_mem_nil, or_false] at hi
  rcases hi with rfl | rfl | rfl | rfl | rfl | rfl | rfl <;>
    exact ⟨rfl, hramIndex_lt_of_inRange hw (by decide) (by decide)⟩

/-- Every well-formed ST8.HRAM row is the store to high RAM, at an index in its range. -/
theorem exec_hramStore {i : Instr} {a : Addr} {v : Byte} (hi : i ∈ hramStores a v)
    (hw : WellFormed i) (s : State) :
    exec i s = storeHram a v s ∧ hramIndex a < hramSize := by
  simp only [hramStores, List.mem_cons, List.not_mem_nil, or_false] at hi
  rcases hi with rfl | rfl | rfl | rfl | rfl | rfl | rfl <;>
    exact ⟨rfl, hramIndex_lt_of_inRange hw (by decide) (by decide)⟩

/-! ### Storing one byte and nothing else -/

theorem State.storesWram_write {s : State} {b : Block} {o : Nat} (a : Addr) (v : Byte)
    (hb : s.wram = some b) (ho : o < wramSize) :
    s.StoresWram ((s.withWram (some (b.write o v))).withOut (idleOut a)) a o v where
  stored := by simp [readWram_write v hb ho]
  others p hp := by simp [readWram_write v hb ho, hp]
  registers := ⟨rfl, rfl, rfl, rfl, rfl, rfl, rfl, rfl, rfl, rfl⟩
  rom := ⟨rfl, fun _ => rfl⟩
  hram _ := rfl
  outputs := rfl

theorem State.storesHram_write {s : State} {k : Nat} (a : Addr) (v : Byte) (hk : k < hramSize) :
    s.StoresHram ((s.withHram (s.hram.write k v)).withOut (idleOut a)) a k v where
  stored := by simp [readHram_write v hk]
  others p hp := by simp [readHram_write v hk, hp]
  registers := ⟨rfl, rfl, rfl, rfl, rfl, rfl, rfl, rfl, rfl, rfl⟩
  rom := ⟨rfl, fun _ => rfl⟩
  wram _ := rfl
  outputs := rfl

/-- In a session a store to an offset of working RAM completes and writes that byte alone. -/
theorem inSession_writeWram {s : State} {b : Block} {o : Nat} (a : Addr) (v : Byte)
    (ha : s.active = true) (hb : s.wram = some b) (ho : o < wramSize) :
    ∃ t, inSession s (completeStore a (s.writeWram o v)) = .next t ∧ s.StoresWram t a o v :=
  ⟨_, inSession_completeStore ha (writeWram_ok_iff.2 ⟨b, hb, ho, rfl⟩),
    State.storesWram_write a v hb ho⟩

/-! ### Bank N and its echo (R65, R130 to R133) -/

/-- The offset in bank N depends on the base and the low twelve bits of the address alone. -/
theorem wramNOffset_congr {s t : State} {a a' : Addr}
    (hbase : t.workingRamBankBase = s.workingRamBankBase)
    (ha : a' &&& 0x0FFF#16 = a &&& 0x0FFF#16) : wramNOffset t a' = wramNOffset s a := by
  simp only [wramNOffset, wramIndex, hbase, ha]

/-- Every LD8 of the bank-N window or of the echo returns the byte at its bank-N offset. -/
theorem exec_bankNLoad_of_readWram {s : State} {i : Instr} {a : Addr} {v : Byte}
    (ha : s.active = true) (hi : i ∈ bankNLoads a) (hr : s.readWram (wramNOffset s a) = .ok v) :
    exec i s = .next (s.withOut (loadOut a v)) :=
  (exec_bankNLoad hi s).trans (inSession_completeLoad ha hr)

/-- A byte stored at a bank-N offset is what every load of that offset returns next. -/
theorem State.StoresWram.seen_by_bankNLoad {s t : State} {i : Instr} {a a' : Addr} {v : Byte}
    (h : s.StoresWram t a (wramNOffset s a) v) (ha : s.active = true) (hi : i ∈ bankNLoads a')
    (hlow : a' &&& 0x0FFF#16 = a &&& 0x0FFF#16) :
    exec i t = .next (t.withOut (loadOut a' v)) := by
  have hoff : wramNOffset t a' = wramNOffset s a :=
    wramNOffset_congr h.registers.workingRamBankBase hlow
  exact exec_bankNLoad_of_readWram (h.registers.active.trans ha) hi (hoff ▸ h.stored)

/-- ST8 to bank N writes one byte, which every load of the same low twelve bits then returns. -/
theorem exec_st8WramN_stores_and_is_seen {s : State} {b : Block} (a : Addr) (v : Byte)
    (ha : s.active = true) (hb : s.wram = some b) (hbase : s.workingRamBankBase.toNat ≤ 0x1000) :
    ∃ t, exec (.st8WramN a v) s = .next t ∧ s.StoresWram t a (wramNOffset s a) v ∧
      ∀ (a' : Addr) (i : Instr), i ∈ bankNLoads a' → a' &&& 0x0FFF#16 = a &&& 0x0FFF#16 →
        ∃ u, exec i t = .next u ∧ u.out.rspRdata = v.setWidth 16 := by
  obtain ⟨t, ht, hst⟩ := inSession_writeWram a v ha hb (wramNOffset_lt hbase a)
  exact ⟨t, ht, hst, fun _ _ hi hlow => ⟨_, hst.seen_by_bankNLoad ha hi hlow, rfl⟩⟩

/-- Settles O17: the loads read back the offset the store wrote. -/
theorem storeWramNWritesOneByteSeenInTheEcho :
    Obligations.StoreWramNWritesOneByteSeenInTheEcho :=
  fun a v _ _ ha hb hbase => exec_st8WramN_stores_and_is_seen a v ha hb hbase

/-- Settles O19: an echo store is the store to bank N at the same address bits. -/
theorem storeEchoWritesTheSwitchableBank : Obligations.StoreEchoWritesTheSwitchableBank := by
  intro a v s b i ha hb hbase hi
  rw [exec_echoStore hi]
  exact exec_st8WramN_stores_and_is_seen a v ha hb hbase

/-- Settles O16: the bank-N offset is inside working RAM. -/
theorem loadWramNReadsTheSwitchableBank : Obligations.LoadWramNReadsTheSwitchableBank :=
  fun a _ _ ha hb hbase => inSession_completeLoad ha (readWram_ok hb (wramNOffset_lt hbase a))

/-- Settles O18: an echo load is the load of bank N at the same address bits. -/
theorem loadEchoReadsTheSwitchableBank : Obligations.LoadEchoReadsTheSwitchableBank :=
  fun a s b _ ha hb hbase hi =>
    (exec_echoLoad hi s).trans (loadWramNReadsTheSwitchableBank a s b ha hb hbase)

/-! ### ROM and working-RAM bank 0 (R122, R123, R128, R129) -/

/-- Settles O9: the fixed bank's offset is below 0x4000, inside every admitted image. -/
theorem loadRom0ReadsTheFixedBank : Obligations.LoadRom0ReadsTheFixedBank := by
  intro a s r ha hr hsize
  have hoff : rom0Offset a < r.size := by
    have := romIndex_lt a
    unfold rom0Offset; omega
  exact inSession_completeLoad ha (readRom_ok hr hoff)

/-- Settles O10: an offset of the bank window is inside the image when the window is. -/
theorem loadRomNReadsTheBankWindow : Obligations.LoadRomNReadsTheBankWindow := by
  intro a s r ha hr hwin
  have hoff : romNOffset s a < r.size := by
    have := romIndex_lt a
    unfold romNOffset; omega
  exact inSession_completeLoad ha (readRom_ok hr hoff)

/-- Settles O14: the index is below 0x1000, inside working RAM. -/
theorem loadWram0ReadsTheLowerBank : Obligations.LoadWram0ReadsTheLowerBank :=
  fun a _ _ ha hb => inSession_completeLoad ha (readWram_ok hb (wram0Offset_lt a))

/-- Settles O15: the index is below 0x1000, inside working RAM. -/
theorem storeWram0WritesOneByte : Obligations.StoreWram0WritesOneByte :=
  fun a v _ _ ha hb => inSession_writeWram a v ha hb (wram0Offset_lt a)

/-! ### High RAM (R140, R141) -/

/-- Settles O24: the rows' ranges end at 0xFFFE, so the index is below 127. -/
theorem loadHramReadsTheIndexedByte : Obligations.LoadHramReadsTheIndexedByte := by
  intro a s i ha hi hw
  obtain ⟨hexec, hidx⟩ := exec_hramLoad hi hw s
  refine ⟨hexec.trans (inSession_completeLoad ha (readHram_ok hidx)), Nat.le_of_lt_succ hidx, ?_⟩
  intro hzero
  rw [hzero]; rfl

/-- Settles O25: the index is in range as for a load. -/
theorem storeHramWritesOneByte : Obligations.StoreHramWritesOneByte := by
  intro a v s i ha hi hw
  obtain ⟨hexec, hidx⟩ := exec_hramStore hi hw s
  exact ⟨_, hexec.trans (inSession_completeStore ha (writeHram_ok_iff.2 ⟨hidx, rfl⟩)),
    State.storesHram_write a v hidx⟩

/-! ### The video and I/O collaborators (R124, R125, R138, R139, R142, R143) -/

/-- Settles O11: the offset on the port is `a[12:0]`. -/
theorem loadVramReturnsTheCollaboratorsByte : Obligations.LoadVramReturnsTheCollaboratorsByte :=
  fun a s ha => ⟨vramOffset a, vramOffset_toNat a,
    inSession_respond ha (vramReadOut a s.pins.vramRdata)⟩

/-- Settles O12: the offset of both calls is `a[12:0]`. -/
theorem storeVramWritesThenNotifies : Obligations.StoreVramWritesThenNotifies :=
  fun a v _ ha => ⟨vramOffset a, vramOffset_toNat a, inSession_respond ha (vramWriteOut a v)⟩

/-- Settles O22: the two rows differ in the id alone. -/
theorem loadIoAndIeAreDelegated : Obligations.LoadIoAndIeAreDelegated :=
  fun a s ha =>
    ⟨⟨ioRegister a, ioRegister_toNat a,
      inSession_respond ha (ioReadOut a (ioRegister a) s.pins.ioRdata)⟩,
    inSession_respond ha (ioReadOut a s.config.ieRegId s.pins.ioRdata)⟩

/-- Settles O23: the two rows differ in the id alone. -/
theorem storeIoAndIeAreDelegated : Obligations.StoreIoAndIeAreDelegated :=
  fun a v s ha =>
    ⟨⟨ioRegister a, ioRegister_toNat a, inSession_respond ha (ioWriteOut a (ioRegister a) v)⟩,
    inSession_respond ha (ioWriteOut a s.config.ieRegId v)⟩

/-! ### The placeholders and the unusable region (R126, R127, R134 to R137, R144, R145) -/

/-- Settles O13: a load's 0x00 is the only thing beside the diagnostic. -/
theorem externalRamIsAPlaceholder : Obligations.ExternalRamIsAPlaceholder :=
  fun a _ _ ha =>
    ⟨inSession_respond ha (raise .unimplExtram a (loadOut a 0#8)),
    inSession_respond ha (raise .unimplExtram a (idleOut a))⟩

/-- Settles O20: the two rows of each direction share one meaning. -/
theorem oamIsAPlaceholder : Obligations.OamIsAPlaceholder := by
  intro a v s ha
  have hload := inSession_respond ha (raise .unimplOam a (loadOut a 0#8))
  have hstore := inSession_respond ha (raise .unimplOam a (idleOut a))
  exact ⟨List.forall_mem_cons.2 ⟨hload, List.forall_mem_singleton.2 hload⟩,
    List.forall_mem_cons.2 ⟨hstore, List.forall_mem_singleton.2 hstore⟩⟩

/-- Settles O21: the two rows of each direction share one meaning. -/
theorem unusableReadsZeroAndIgnoresStores : Obligations.UnusableReadsZeroAndIgnoresStores := by
  intro a v s ha
  have hload := inSession_respond ha (loadOut a 0#8)
  have hstore := inSession_respond ha (idleOut a)
  exact ⟨List.forall_mem_cons.2 ⟨hload, List.forall_mem_singleton.2 hload⟩,
    List.forall_mem_cons.2 ⟨hstore, List.forall_mem_singleton.2 hstore⟩⟩

/-- Settles O26: the two operations complete alike, and the strict parameter refuses both. -/
theorem wideAccessIsAPlaceholder : Obligations.WideAccessIsAPlaceholder := by
  intro a d s ha
  refine ⟨fun hoff => ?_, fun hon => ?_⟩
  · have hout := inSessionWide_respond ha hoff (raise .unimplWide a (idleOut a))
    exact ⟨hout, hout⟩
  · have href := inSessionWide_strict ha hon (respond s (raise .unimplWide a (idleOut a)))
    exact ⟨href, href⟩

end Sys2Proof.Machine

/-! PROOFS. The switch procedure, the register writes of the variants and the header table
(41_bank_controller.md R180, R185, R189 to R201). -/

namespace Sys2Proof.Machine

/-! ### The switch procedure (R185) -/

/-- Settles O29: the two branches of the switch, the base being the exact product. -/
theorem trySwitchRejectsOrApplies : Obligations.TrySwitchRejectsOrApplies :=
  fun _ b _ => ⟨fun h => trySwitch_rejected h,
    fun h => ⟨BitVec.ofNat 21 (bankStart b), bankStart_toNat b, trySwitch_applied h⟩⟩

/-! ### The slot of an address (R96) -/

theorem slotOf_toNat (a : Addr) : (slotOf a).toNat = a.toNat / 0x2000 := by
  have ha := a.isLt
  simp only [slotOf, BitVec.extractLsb'_toNat, Nat.shiftRight_eq_div_pow]
  omega

theorem slotOf_eq_iff (a : Addr) (k : BitVec 3) : slotOf a = k ↔ a.toNat / 0x2000 = k.toNat := by
  rw [← slotOf_toNat, BitVec.toNat_inj]

/-! ### The shared decode of Type1, Type3 and Type5, slot by slot (R189) -/

section
variable {a : Addr} (b : BitVec 7) (s : State)

theorem bankedWrite_slot0 (hhi : a.toNat ≤ 0x1FFF) :
    bankedWrite a b s = mbcPlaceholder .unimplRamen a s := by
  have h0 : slotOf a = 0#3 := (slotOf_eq_iff a _).2 (by simp only [BitVec.toNat_ofNat]; omega)
  rw [bankedWrite, if_pos h0]

theorem bankedWrite_slot1 (hlo : 0x2000 ≤ a.toNat) (hhi : a.toNat ≤ 0x3FFF) :
    bankedWrite a b s = trySwitch a b s := by
  have h1 : slotOf a = 1#3 := (slotOf_eq_iff a _).2 (by simp only [BitVec.toNat_ofNat]; omega)
  rw [bankedWrite, h1, if_neg (by decide), if_pos rfl]

theorem bankedWrite_of_slot_ge_two (hlo : 0x4000 ≤ a.toNat) : bankedWrite a b s = mbcNoop a s := by
  have hslot : 2 ≤ (slotOf a).toNat := by rw [slotOf_toNat]; omega
  have h0 : slotOf a ≠ 0#3 := by intro h; simp [h] at hslot
  have h1 : slotOf a ≠ 1#3 := by intro h; simp [h] at hslot
  rw [bankedWrite, if_neg h0, if_neg h1]

end

/-! ### The dispatch by variant (R189) -/

section
variable {s : State} (a : Addr) (v : Byte)

theorem mbcWrite_typeNone (h : s.controllerType = .typeNone) :
    mbcWrite a v s = mbcPlaceholder .unimplRamen a s := by
  simp only [mbcWrite, h]

theorem mbcWrite_type2_or_type4 (h : s.controllerType = .type2 ∨ s.controllerType = .type4) :
    mbcWrite a v s = mbcPlaceholder .unimplMbc a s := by
  rcases h with h | h <;> simp only [mbcWrite, h]

theorem mbcWrite_type1 (h : s.controllerType = .type1) :
    mbcWrite a v s = bankedWrite a (bankT1 v s.currentBank) s := by
  simp only [mbcWrite, h]

theorem mbcWrite_type3 (h : s.controllerType = .type3) :
    mbcWrite a v s = bankedWrite a (bankT3 v) s := by
  simp only [mbcWrite, h]

theorem mbcWrite_type5 (h : s.controllerType = .type5) :
    mbcWrite a v s = bankedWrite a (bankT5 v) s := by
  simp only [mbcWrite, h]

/-- The three variants with a bank register share one decode, and differ in the bank alone. -/
theorem mbcWrite_banked (h : s.controllerType = .type1 ∨ s.controllerType = .type3 ∨
    s.controllerType = .type5) : ∃ b, mbcWrite a v s = bankedWrite a b s := by
  rcases h with h | h | h
  · exact ⟨_, mbcWrite_type1 a v h⟩
  · exact ⟨_, mbcWrite_type3 a v h⟩
  · exact ⟨_, mbcWrite_type5 a v h⟩

end

/-! ### The four ST8.MBC rows (R121) -/

/-- In a session every ST8.MBC row is the variant's register write. -/
theorem exec_mbcStore {i : Instr} {a : Addr} {v : Byte} {s : State} (hi : i ∈ mbcStores a v)
    (ha : s.active = true) : exec i s = .next (mbcWrite a v s) := by
  have hrow : exec i s = inSession s (.next (mbcWrite a v s)) := by
    simp only [mbcStores, List.mem_cons, List.not_mem_nil, or_false] at hi
    rcases hi with rfl | rfl | rfl | rfl <;> rfl
  rw [hrow, inSession_active ha]

/-- A well-formed slot-1 write of a variant with a bank register tries the variant's bank. -/
theorem exec_st8MbcS1_of_banked {a : Addr} {v : Byte} {b : BitVec 7} {s : State}
    (ha : s.active = true) (hw : WellFormed (.st8MbcS1 a v))
    (hb : mbcWrite a v s = bankedWrite a b s) :
    exec (.st8MbcS1 a v) s = .next (trySwitch a b s) := by
  obtain ⟨hlo, hhi⟩ := Laws.inRange_iff.1 hw
  rw [exec_mbcStore (a := a) (v := v) (by simp [mbcStores]) ha, hb, bankedWrite_slot1 b s hlo hhi]

/-- Settles O30: no slot is decoded under these variants. -/
theorem unbankedVariantsIgnoreEveryWrite : Obligations.UnbankedVariantsIgnoreEveryWrite :=
  fun a v _ _ ha hi =>
    ⟨fun h => (exec_mbcStore hi ha).trans (congrArg _ (mbcWrite_typeNone a v h)),
    fun h => (exec_mbcStore hi ha).trans (congrArg _ (mbcWrite_type2_or_type4 a v h))⟩

/-- Settles O31: the row's range is slot 0, whose meaning is the same whatever the bank asked for. -/
theorem slotZeroIsTheRamEnablePlaceholder : Obligations.SlotZeroIsTheRamEnablePlaceholder := by
  intro a v s ha hw hct
  obtain ⟨b, hb⟩ := mbcWrite_banked a v hct
  obtain ⟨-, hhi⟩ := Laws.inRange_iff.1 hw
  rw [exec_mbcStore (a := a) (v := v) (by simp [mbcStores]) ha, hb, bankedWrite_slot0 b s hhi]
  rfl

/-- Settles O32: both rows' ranges start at 0x4000 or above, past slot 1. -/
theorem slotsTwoAndThreeAreNoOps : Obligations.SlotsTwoAndThreeAreNoOps := by
  intro a v s i ha hi hw hct
  obtain ⟨b, hb⟩ := mbcWrite_banked a v hct
  have hrow : i ∈ mbcStores a v ∧ 0x4000 ≤ a.toNat := by
    rcases hi with rfl | rfl
    · exact ⟨by simp [mbcStores], (Laws.inRange_iff.1 hw).1⟩
    · exact ⟨by simp [mbcStores], le_trans (by decide) (Laws.inRange_iff.1 hw).1⟩
  rw [exec_mbcStore hrow.1 ha, hb, bankedWrite_of_slot_ge_two b s hrow.2]
  rfl

/-- Settles O33: the number of the bank is that of O28. -/
theorem type1SlotOneSelectsFiveBits : Obligations.Type1SlotOneSelectsFiveBits :=
  fun a v s ha hct hw => ⟨bankT1 v s.currentBank, bankT1_toNat v s.currentBank,
    exec_st8MbcS1_of_banked ha hw (mbcWrite_type1 a v hct)⟩

/-- Settles O34: the number of the bank is that of O28. -/
theorem type3SlotOneSelectsSevenBits : Obligations.Type3SlotOneSelectsSevenBits :=
  fun a v _ ha hct hw => ⟨bankT3 v, bankT3_toNat v,
    exec_st8MbcS1_of_banked ha hw (mbcWrite_type3 a v hct)⟩

/-! ### Bank 0 under Type5 (R186, R200) -/

theorem exists_rom_of_romSize_pos {s : State} (h : 0 < s.romSize) :
    ∃ r, s.rom = some r ∧ r.size = s.romSize := by
  cases hr : s.rom with
  | none => simp [State.romSize, hr] at h
  | some r => exact ⟨r, rfl, (romSize_of_some hr).symm⟩

/-- R186: bank 0 is in range of every image with one bank, and puts the window at offset 0. -/
theorem trySwitch_zero_applied {s : State} (a : Addr) (h : romBankSize ≤ s.romSize) :
    trySwitch a 0#7 s = (s.withBank 0#7 0#21).withOut (bsrResult .applied 0#7 (idleOut a)) :=
  trySwitch_applied (by simpa [bankStart] using h)

/-- With the window at offset 0, ROM bank N reads as ROM bank 0. -/
theorem loadRomN_eq_loadRom0_of_base_zero {s : State} (ha : s.active = true)
    (hsize : minRomSize ≤ s.romSize) (hbase : s.romBankBase = 0#21) (a : Addr) :
    ∃ u u', exec (.ld8RomN a) s = .next u ∧ exec (.ld8Rom0 (a &&& 0x3FFF#16)) s = .next u' ∧
      u.out.rspRdata = u'.out.rspRdata := by
  have hmin : minRomSize = 0x8000 := rfl
  obtain ⟨r, hr, hrs⟩ := exists_rom_of_romSize_pos (s := s) (by omega)
  have hwin : s.romBankBase.toNat + 0x4000 ≤ r.size := by
    rw [hbase, BitVec.toNat_ofNat]; omega
  refine ⟨_, _, loadRomNReadsTheBankWindow a s r ha hr hwin,
    loadRom0ReadsTheFixedBank _ s r ha hr (by omega), ?_⟩
  simp [hbase, BitVec.and_assoc]

/-- Settles O35: the requested bank is 0, which every admitted image has. -/
theorem type5SlotOneAcceptsBankZero : Obligations.Type5SlotOneAcceptsBankZero := by
  intro a v s ha hct hw
  have hexec := exec_st8MbcS1_of_banked ha hw (mbcWrite_type5 a v hct)
  refine ⟨⟨bankT5 v, bankT5_toNat v, hexec⟩, fun hinv hv => ?_⟩
  have hsize : minRomSize ≤ s.romSize := (hinv.session ha).rom_size
  have hzero : bankT5 v = 0#7 := BitVec.eq_of_toNat_eq ((bankT5_toNat v).trans hv)
  rw [hzero, trySwitch_zero_applied a (le_trans (by decide) hsize)] at hexec
  exact ⟨_, hexec, rfl, rfl, rfl, loadRomN_eq_loadRom0_of_base_zero ha hsize rfl⟩

/-! ### The header table (R180) -/

/-- The table, over the number of the type byte. -/
theorem headerLookup_toNat (t : Byte) :
    headerLookup t =
      if t.toNat = 0x00 ∨ t.toNat = 0x08 ∨ t.toNat = 0x09 then some .typeNone
      else if 0x01 ≤ t.toNat ∧ t.toNat ≤ 0x03 then some .type1
      else if 0x05 ≤ t.toNat ∧ t.toNat ≤ 0x06 then some .type2
      else if 0x0F ≤ t.toNat ∧ t.toNat ≤ 0x13 then some .type3
      else if 0x15 ≤ t.toNat ∧ t.toNat ≤ 0x17 then some .type4
      else if 0x19 ≤ t.toNat ∧ t.toNat ≤ 0x1E then some .type5
      else none := by
  have hmem (l : List Byte) : l.contains t = true ↔ ∃ x ∈ l, t.toNat = x.toNat := by
    simp [BitVec.toNat_inj]
  simp only [headerLookup, hmem, List.exists_mem_cons_iff, List.not_mem_nil, false_and, exists_false,
    or_false, BitVec.toNat_ofNat, Nat.reducePow, Nat.reduceMod]
  refine if_congr Iff.rfl rfl <| if_congr ?_ rfl <| if_congr ?_ rfl <| if_congr ?_ rfl <|
    if_congr ?_ rfl <| if_congr ?_ rfl rfl <;> omega

/-- A successful RESET with an image of the least size or more. -/
theorem exec_reset_allocated {a : Addr} {s : State} {r : Rom} (hr : s.rom = some r)
    (hsize : minRomSize ≤ r.size) (hok : s.pins.allocOk = true) :
    exec (.reset a) s = .next (afterReset a r s) := by
  change execReset a s = _
  simp [execReset, hr, Nat.not_lt.2 hsize, hok]

/-- A type byte with a row of its own selects that row's variant, without a diagnostic. -/
theorem afterReset_of_listed {a : Addr} {s : State} {r : Rom} {ct : Controller}
    (h : headerLookup (Rom.byte r cartTypeOffset) = some ct) :
    (afterReset a r s).controllerType = ct ∧ (afterReset a r s).out.diagValid = false := by
  simp [afterReset, variantOf, resetOut, isFallback, h, idleOut]

/-- A type byte without a row selects Type5, and is reported (R181). -/
theorem afterReset_of_unlisted {a : Addr} {s : State} {r : Rom}
    (h : headerLookup (Rom.byte r cartTypeOffset) = none) :
    (afterReset a r s).controllerType = .type5 ∧ (afterReset a r s).out.diagValid = true ∧
      (afterReset a r s).out.diagCode = .unknownCartType ∧
      (afterReset a r s).out.diagInfo.toNat = (Rom.byte r cartTypeOffset).toNat := by
  have hlt : (Rom.byte r cartTypeOffset).toNat < 65536 := (BitVec.isLt _).trans (by decide)
  simp [afterReset, variantOf, resetOut, isFallback, h, raise, hlt]

/-- Settles O38: each range of the statement picks one row of the table, or none. -/
theorem resetSelectsTheVariantOfTheHeader : Obligations.ResetSelectsTheVariantOfTheHeader := by
  intro a s r hr hsize hok
  refine ⟨afterReset a r s, exec_reset_allocated hr hsize hok, ?_⟩
  have hn := headerLookup_toNat (Rom.byte r 0x147)
  dsimp only
  refine ⟨fun h => afterReset_of_listed ?_, fun h => afterReset_of_listed ?_,
    fun h => afterReset_of_listed ?_, fun h => afterReset_of_listed ?_,
    fun h => afterReset_of_listed ?_, fun h => afterReset_of_listed ?_,
    fun h => afterReset_of_unlisted ?_⟩ <;>
    exact hn.trans (by simp (disch := omega) only [if_pos, if_neg])

end Sys2Proof.Machine

/-! PROOFS. The decoder and the encoder (30_encoding.md R90 to R94, R102). -/

namespace Sys2Proof.Laws

/-- The word of every well-formed instruction selects the row of its constructor. -/
theorem rowOfInstr : ∀ i : Instr, RowOfInstr.Statement i
  | .ld8Rom0 a => RowOfInstr.ld8Rom0 a
  | .ld8RomN a => RowOfInstr.ld8RomN a
  | .ld8Vram a => RowOfInstr.ld8Vram a
  | .ld8Extram a => RowOfInstr.ld8Extram a
  | .ld8Wram0 a => RowOfInstr.ld8Wram0 a
  | .ld8WramN a => RowOfInstr.ld8WramN a
  | .ld8Echo0 a => RowOfInstr.ld8Echo0 a
  | .ld8Echo1 a => RowOfInstr.ld8Echo1 a
  | .ld8Echo2 a => RowOfInstr.ld8Echo2 a
  | .ld8Echo3 a => RowOfInstr.ld8Echo3 a
  | .ld8Oam0 a => RowOfInstr.ld8Oam0 a
  | .ld8Oam1 a => RowOfInstr.ld8Oam1 a
  | .ld8Unusable0 a => RowOfInstr.ld8Unusable0 a
  | .ld8Unusable1 a => RowOfInstr.ld8Unusable1 a
  | .ld8Io a => RowOfInstr.ld8Io a
  | .ld8Hram0 a => RowOfInstr.ld8Hram0 a
  | .ld8Hram1 a => RowOfInstr.ld8Hram1 a
  | .ld8Hram2 a => RowOfInstr.ld8Hram2 a
  | .ld8Hram3 a => RowOfInstr.ld8Hram3 a
  | .ld8Hram4 a => RowOfInstr.ld8Hram4 a
  | .ld8Hram5 a => RowOfInstr.ld8Hram5 a
  | .ld8Hram6 a => RowOfInstr.ld8Hram6 a
  | .ld8Ie a => RowOfInstr.ld8Ie a
  | .st8MbcS0 a v => RowOfInstr.st8MbcS0 a v
  | .st8MbcS1 a v => RowOfInstr.st8MbcS1 a v
  | .st8MbcS2 a v => RowOfInstr.st8MbcS2 a v
  | .st8MbcS3 a v => RowOfInstr.st8MbcS3 a v
  | .st8Vram a v => RowOfInstr.st8Vram a v
  | .st8Extram a v => RowOfInstr.st8Extram a v
  | .st8Wram0 a v => RowOfInstr.st8Wram0 a v
  | .st8WramN a v => RowOfInstr.st8WramN a v
  | .st8Echo0 a v => RowOfInstr.st8Echo0 a v
  | .st8Echo1 a v => RowOfInstr.st8Echo1 a v
  | .st8Echo2 a v => RowOfInstr.st8Echo2 a v
  | .st8Echo3 a v => RowOfInstr.st8Echo3 a v
  | .st8Oam0 a v => RowOfInstr.st8Oam0 a v
  | .st8Oam1 a v => RowOfInstr.st8Oam1 a v
  | .st8Unusable0 a v => RowOfInstr.st8Unusable0 a v
  | .st8Unusable1 a v => RowOfInstr.st8Unusable1 a v
  | .st8Io a v => RowOfInstr.st8Io a v
  | .st8Hram0 a v => RowOfInstr.st8Hram0 a v
  | .st8Hram1 a v => RowOfInstr.st8Hram1 a v
  | .st8Hram2 a v => RowOfInstr.st8Hram2 a v
  | .st8Hram3 a v => RowOfInstr.st8Hram3 a v
  | .st8Hram4 a v => RowOfInstr.st8Hram4 a v
  | .st8Hram5 a v => RowOfInstr.st8Hram5 a v
  | .st8Hram6 a v => RowOfInstr.st8Hram6 a v
  | .st8Ie a v => RowOfInstr.st8Ie a v
  | .ld16 a => RowOfInstr.ld16 a
  | .st16 a d => RowOfInstr.st16 a d
  | .init a => RowOfInstr.init a
  | .reset a => RowOfInstr.reset a
  | .deinit a => RowOfInstr.deinit a

end Sys2Proof.Laws

namespace Sys2Proof

theorem decode_encode {i : Instr} (h : WellFormed i) : decode (encode i) = .ok i := by
  obtain ⟨r, hm, hs, hb⟩ := Laws.rowOfInstr i h
  rw [decode_of_selects hm hs, hb]

/-- Settles O2: a row that builds the instruction is selected, and the rows are disjoint. -/
theorem decodeOfEncodeIsIdentity : Obligations.DecodeOfEncodeIsIdentity :=
  fun _ => decode_encode

/-! ### The rows tile the words below op 111 (R91, R102) -/

/-- How many words a row selects: those that agree with its pattern above the bits its mask drops. -/
def Row.width (r : Row) : Nat := 2 ^ 35 - r.mask.toNat

/-- Every mask of the table keeps the bits from some `k` up, `k` at least 16, and the pattern has no bit
below `k`. -/
theorem opcodeRows_mask : ∀ r ∈ opcodeRows, ∃ k ≤ 35, 16 ≤ k ∧
    r.mask.toNat = 2 ^ 35 - 2 ^ k ∧ 2 ^ k ∣ r.pattern.toNat := by decide

/-- A number is `p` down to a multiple of `2 ^ k` exactly when it lies in the `2 ^ k` numbers from `p`. -/
theorem div_mul_two_pow_eq_iff {k p : Nat} (hp : 2 ^ k ∣ p) (x : Nat) :
    x / 2 ^ k * 2 ^ k = p ↔ p ≤ x ∧ x < p + 2 ^ k := by
  obtain ⟨q, rfl⟩ := hp
  have hpos := Nat.two_pow_pos k
  rw [Nat.mul_comm, Nat.mul_right_inj hpos.ne', Nat.div_eq_iff hpos, Nat.mul_comm q]
  omega

theorem Row.selects_iff_range {r : Row} (hm : r ∈ opcodeRows) (w : RequestWord) :
    r.selects w = true ↔ r.pattern.toNat ≤ w.toNat ∧ w.toNat < r.pattern.toNat + r.width := by
  obtain ⟨k, hk, -, hmask, hdvd⟩ := opcodeRows_mask r hm
  have hpow : 2 ^ k ≤ 2 ^ 35 := Nat.pow_le_pow_right (by decide) hk
  have hwidth : r.width = 2 ^ k := by rw [Row.width, hmask]; omega
  rw [Row.selects_iff hk hmask, hwidth, div_mul_two_pow_eq_iff hdvd]

/-- The rows, in their order, follow one another without a gap from word `lo` to word `hi`. -/
def rowsTile : Nat → List Row → Nat → Bool
  | lo, [], hi => lo == hi
  | lo, r :: rs, hi => r.pattern.toNat == lo && rowsTile (lo + r.width) rs hi

theorem opcodeRows_tile : rowsTile 0 opcodeRows (7 * 2 ^ 32) = true := by decide

theorem rowsTile_le {lo hi : Nat} {rs : List Row} (h : rowsTile lo rs hi = true) : lo ≤ hi := by
  induction rs generalizing lo with
  | nil => exact (beq_iff_eq.1 h).le
  | cons r rs ih =>
    obtain ⟨-, hrest⟩ := Bool.and_eq_true_iff.1 h
    exact (Nat.le_add_right _ _).trans (ih hrest)

/-- Of rows that tile a range, a word selects exactly one inside the range, and none outside. -/
theorem length_selecting_of_tile {lo hi : Nat} {rs : List Row} {w : RequestWord}
    (hsub : ∀ r ∈ rs, r ∈ opcodeRows) (h : rowsTile lo rs hi = true) :
    (rs.filter (fun r => r.selects w)).length = if lo ≤ w.toNat ∧ w.toNat < hi then 1 else 0 := by
  induction rs generalizing lo with
  | nil =>
    obtain rfl : lo = hi := beq_iff_eq.1 h
    rw [if_neg (by omega)]; rfl
  | cons r rs ih =>
    obtain ⟨hlo, hrest⟩ := Bool.and_eq_true_iff.1 h
    obtain rfl : r.pattern.toNat = lo := beq_iff_eq.1 hlo
    have hsel := Row.selects_iff_range (hsub r List.mem_cons_self) w
    have hcount := ih (fun x hx => hsub x (List.mem_cons_of_mem _ hx)) hrest
    have hle := rowsTile_le hrest
    by_cases hs : r.selects w = true
    · have hin := hsel.1 hs
      rw [List.filter_cons_of_pos (by exact hs), List.length_cons, hcount, if_neg (by omega),
        if_pos (by omega)]
    · rw [List.filter_cons_of_neg (by exact hs), hcount]
      exact if_congr (by rw [hsel] at hs; omega) rfl rfl

/-- R102: a word whose op is not 111 selects exactly one row. -/
theorem length_selecting {w : RequestWord} (h : reqOp w ≠ 0b111#3) :
    (opcodeRows.filter (fun r => r.selects w)).length = 1 := by
  have hop : w.toNat / 2 ^ 32 ≠ 7 := fun h' => h (BitVec.eq_of_toNat_eq ((reqOp_toNat w).trans h'))
  have hw := w.isLt
  rw [length_selecting_of_tile (fun _ h => h) opcodeRows_tile, if_pos (by omega)]

theorem exists_selected_row {w : RequestWord} (h : reqOp w ≠ 0b111#3) :
    ∃ r ∈ opcodeRows, r.selects w = true := by
  have hlen := length_selecting h
  obtain ⟨r, hr⟩ := List.exists_mem_of_length_pos (hlen ▸ Nat.one_pos)
  exact ⟨r, List.mem_filter.1 hr⟩

/-! ### What a row builds (R91, R92) -/

theorem Row.build_addr : ∀ r ∈ opcodeRows, ∀ (a : Addr) (d : Half), (r.build a d).addr = a := by
  refine List.forall_iff_forall_mem.1 ?_
  repeat' apply And.intro
  all_goals exact fun _ _ => rfl

/-- A row selects words whose address lies in its instruction's range only. -/
theorem Row.build_wellFormed : ∀ r ∈ opcodeRows, ∀ (w : RequestWord) (d : Half),
    r.pattern.toNat ≤ w.toNat ∧ w.toNat < r.pattern.toNat + r.width →
    WellFormed (r.build (reqAddr w) d) := by
  refine List.forall_iff_forall_mem.1 ?_
  repeat' apply And.intro
  all_goals simp only [List.Forall, WellFormed, Row.width, Instr.wf, Laws.inRange_iff, reqAddr_toNat,
    BitVec.toNat_ofNat, Nat.reduceMod, Nat.reducePow, implies_true]
  all_goals intros; omega

/-- Only ST8 rows build from `wdata[7:0]`, and only ST16 from `wdata`. -/
theorem Row.build_congr : ∀ r ∈ opcodeRows, ∀ (a : Addr) (d d' : Half),
    (reqOp r.pattern = 0b001#3 → storeByte d = storeByte d') →
    (reqOp r.pattern = 0b011#3 → d = d') → r.build a d = r.build a d' := by
  refine List.forall_iff_forall_mem.1 ?_
  repeat' apply And.intro
  all_goals simp +contextual [reqOp]


/-! ### What the decoder answers -/

/-- A word whose op is not 111 decodes to what the row it selects builds. -/
theorem decode_of_ne_reservedOp {w : RequestWord} (h : reqOp w ≠ 0b111#3) :
    ∃ r ∈ opcodeRows, r.selects w = true ∧ decode w = .ok (r.build (reqAddr w) (reqWdata w)) := by
  obtain ⟨r, hm, hs⟩ := exists_selected_row h
  exact ⟨r, hm, hs, decode_of_selects hm hs⟩

/-- Settles O3: the rows tile the words below op 111, and each builds from the address field. -/
theorem everyRequestSelectsExactlyOneRow : Obligations.EveryRequestSelectsExactlyOneRow := by
  intro w h
  obtain ⟨r, hm, hs, hd⟩ := decode_of_ne_reservedOp h
  exact ⟨length_selecting h, _, hd,
    Row.build_wellFormed r hm w _ ((Row.selects_iff_range hm w).1 hs), Row.build_addr r hm _ _⟩

/-- The decoder answers with well-formed instructions only. -/
theorem wellFormed_of_decode {w : RequestWord} {i : Instr} (h : decode w = .ok i) : WellFormed i := by
  have hop : reqOp w ≠ 0b111#3 := by
    intro h'
    rw [decode_reservedOp h'] at h
    cases h
  obtain ⟨-, j, hj, hwf, -⟩ := everyRequestSelectsExactlyOneRow w hop
  obtain rfl : j = i := Except.ok.inj (hj.symm.trans h)
  exact hwf

/-- No row looks at `wdata`: selection is by op and address. -/
theorem Row.selects_congr {r : Row} {w w' : RequestWord} (hm : r ∈ opcodeRows)
    (hop : reqOp w = reqOp w') (haddr : reqAddr w = reqAddr w') : r.selects w = r.selects w' := by
  obtain ⟨k, hk, hk16, hmask, -⟩ := opcodeRows_mask r hm
  have hhigh : w.toNat / 2 ^ 16 = w'.toNat / 2 ^ 16 := by
    have h1 := congrArg BitVec.toNat hop
    have h2 := congrArg BitVec.toNat haddr
    rw [reqOp_toNat, reqOp_toNat] at h1
    rw [reqAddr_toNat, reqAddr_toNat] at h2
    omega
  have hdiv (x : Nat) : x / 2 ^ k = x / 2 ^ 16 / 2 ^ (k - 16) := by
    rw [Nat.div_div_eq_div_mul, ← Nat.pow_add, Nat.add_sub_cancel' hk16]
  rw [Bool.eq_iff_iff, Row.selects_iff hk hmask, Row.selects_iff hk hmask, hdiv, hdiv, hhigh]

/-- Settles O5: both words select the same row, which builds the same instruction from both. -/
theorem decodeReadsOnlyTheFieldsOfTheOperation :
    Obligations.DecodeReadsOnlyTheFieldsOfTheOperation := by
  intro w w' hop haddr h8 h16
  by_cases hres : reqOp w = 0b111#3
  · rw [decode_reservedOp hres, decode_reservedOp (hop ▸ hres)]
  · obtain ⟨r, hm, hs, hd⟩ := decode_of_ne_reservedOp hres
    have hs' : r.selects w' = true := (Row.selects_congr hm hop haddr).symm.trans hs
    have hrow := reqOp_of_selects hm hs
    have hbyte (h : reqOp r.pattern = 0b001#3) :
        storeByte (reqWdata w) = storeByte (reqWdata w') := by
      apply BitVec.eq_of_toNat_eq
      rw [storeByte_toNat, storeByte_toNat]
      exact h8 (hrow.trans h)
    rw [hd, decode_of_selects hm hs', haddr,
      Row.build_congr r hm _ _ _ hbyte fun h => h16 (hrow.trans h)]

/-- Settles O1: one evaluation of the decoder for each word. -/
theorem writtenOutWordsDecode : Obligations.WrittenOutWordsDecode := by
  unfold Obligations.WrittenOutWordsDecode
  decide

end Sys2Proof

/-! PROOFS. What a request that completes drives on the outputs, what a controller write can do, and the
invariant (10_state.md sections 3 and 4, 41_bank_controller.md R185 to R201). -/

namespace Sys2Proof.Machine

/-! ### The outputs of a request that completes (R42 to R46) -/

/-- What holds of the outputs of every request to address `a`: the region select is decoded from `a`, the
strobes are those of the calls made, and a diagnostic code stands exactly with `diag_valid`. -/
structure Outputs.Coherent (a : Addr) (o : Outputs) : Prop where
  region_id : o.regionId = Machine.regionId a
  region_sel : o.regionSel = Machine.regionSel a
  vram_read : o.vramRe = true → o.calls = [.vramRead o.vramOff]
  vram_write : o.vramWe = true → o.calls = [.vramWrite o.vramOff o.vramWdata, .vramNotify o.vramOff]
  vram_notify : o.vramNotify = o.vramWe
  io_read : o.ioRe = true → o.calls = [.ioRead o.ioId]
  io_write : o.ioWe = true → o.calls = [.ioWrite o.ioId o.ioWdata]
  no_call : o.vramRe = false → o.vramWe = false → o.ioRe = false → o.ioWe = false → o.calls = []
  diag_valid : o.diagValid = true ↔ o.diagCode ≠ .none
  diag_info : o.diagValid = false → o.diagInfo = 0#16

section
variable {o : Outputs} (a : Addr) (v : Byte)

theorem idleOut_coherent : (idleOut a).Coherent a := by
  constructor <;> simp [idleOut]

theorem loadOut_coherent : (loadOut a v).Coherent a := { idleOut_coherent a with }

theorem vramReadOut_coherent : (vramReadOut a v).Coherent a := by
  constructor <;> simp [vramReadOut, loadOut, idleOut]

theorem vramWriteOut_coherent : (vramWriteOut a v).Coherent a := by
  constructor <;> simp [vramWriteOut, idleOut]

theorem ioReadOut_coherent (id : Byte) : (ioReadOut a id v).Coherent a := by
  constructor <;> simp [ioReadOut, loadOut, idleOut]

theorem ioWriteOut_coherent (id : Byte) : (ioWriteOut a id v).Coherent a := by
  constructor <;> simp [ioWriteOut, idleOut]

variable {a}

theorem Outputs.Coherent.raise {code : DiagCode} (h : o.Coherent a) (hc : code ≠ .none)
    (info : BitVec 16) : (raise code info o).Coherent a :=
  { h with
    diag_valid := ⟨fun _ => hc, fun _ => rfl⟩
    diag_info := fun hv => Bool.noConfusion hv }

theorem Outputs.Coherent.bsrResult (h : o.Coherent a) (code : BsrCode) (b : BitVec 7) :
    (bsrResult code b o).Coherent a := { h with }

theorem Outputs.Coherent.withResetStatus (h : o.Coherent a) (r : ResetStatus) :
    Outputs.Coherent a { o with resetStatus := r } := { h with }

end

theorem resetOut_coherent (a : Addr) (t : Byte) : (resetOut a t).Coherent a := by
  have hok := (idleOut_coherent a).withResetStatus .ok
  unfold resetOut
  split
  · exact hok.raise (by decide) _
  · exact hok

/-! ### Everything a controller write can do (R185, R189) -/

/-- A controller write reports a code other than APPLIED, or applies a switch, which only slot 1 does, to a
bank in range that the variant allows. -/
inductive ControllerEffect (a : Addr) (s : State) : State → Prop where
  | report (o : Outputs) (hcode : o.bsrCode ≠ .applied) (hout : o.Coherent a) :
      ControllerEffect a s (s.withOut o)
  | applied (b : BitVec 7) (hslot : slotOf a = 1#3) (hrange : bankStart b + romBankSize ≤ s.romSize)
      (hallowed : bankAllowed s.controllerType s.currentBank → bankAllowed s.controllerType b) :
      ControllerEffect a s
        ((s.withBank b (BitVec.ofNat 21 (bankStart b))).withOut (bsrResult .applied b (idleOut a)))

theorem mbcPlaceholder_controllerEffect {code : DiagCode} (hc : code ≠ .none) (a : Addr) (s : State) :
    ControllerEffect a s (mbcPlaceholder code a s) :=
  .report _ (by simp [raise, bsrResult]) (((idleOut_coherent a).bsrResult _ _).raise hc _)

theorem bankedWrite_controllerEffect {s : State} (a : Addr) {b : BitVec 7}
    (hallowed : bankAllowed s.controllerType s.currentBank → bankAllowed s.controllerType b) :
    ControllerEffect a s (bankedWrite a b s) := by
  have hidle := idleOut_coherent a
  unfold bankedWrite
  split
  · exact mbcPlaceholder_controllerEffect (by decide) a s
  · split
    · next hslot =>
      by_cases hrange : bankStart b + romBankSize ≤ s.romSize
      · rw [trySwitch_applied hrange]
        exact .applied b hslot hrange hallowed
      · rw [trySwitch_rejected (Nat.not_le.1 hrange)]
        exact .report _ (by simp [raise, bsrResult]) ((hidle.bsrResult _ _).raise (by decide) _)
    · exact .report _ (by simp [bsrResult]) (hidle.bsrResult _ _)

/-- R192: a Type1 session that stands in banks 1 to 31 asks for a bank of 1 to 31. -/
theorem bankT1_range {cb : BitVec 7} (v : Byte) (h : cb.toNat ≤ 31) :
    1 ≤ (bankT1 v cb).toNat ∧ (bankT1 v cb).toNat ≤ 31 := by
  rw [bankT1_toNat]; split <;> omega

/-- R97: Type3 never asks for bank 0. -/
theorem one_le_bankT3 (v : Byte) : 1 ≤ (bankT3 v).toNat := by
  rw [bankT3_toNat]; split <;> omega

theorem mbcWrite_controllerEffect (a : Addr) (v : Byte) (s : State) :
    ControllerEffect a s (mbcWrite a v s) := by
  cases hct : s.controllerType with
  | typeNone =>
    rw [mbcWrite_typeNone a v hct]
    exact mbcPlaceholder_controllerEffect (by decide) a s
  | type2 =>
    rw [mbcWrite_type2_or_type4 a v (.inl hct)]
    exact mbcPlaceholder_controllerEffect (by decide) a s
  | type4 =>
    rw [mbcWrite_type2_or_type4 a v (.inr hct)]
    exact mbcPlaceholder_controllerEffect (by decide) a s
  | type1 =>
    rw [mbcWrite_type1 a v hct]
    refine bankedWrite_controllerEffect a ?_
    rw [hct]
    exact fun hcb => bankT1_range v hcb.2
  | type3 =>
    rw [mbcWrite_type3 a v hct]
    refine bankedWrite_controllerEffect a ?_
    rw [hct]
    exact fun _ => one_le_bankT3 v
  | type5 =>
    rw [mbcWrite_type5 a v hct]
    refine bankedWrite_controllerEffect a ?_
    rw [hct]
    exact fun _ => trivial

/-- A controller write that completes is the variant's register write, in a session. -/
theorem exec_mbcStore_next_iff {i : Instr} {a : Addr} {v : Byte} {s t : State}
    (hi : i ∈ mbcStores a v) : exec i s = .next t ↔ s.active = true ∧ mbcWrite a v s = t := by
  have hrow : exec i s = inSession s (.next (mbcWrite a v s)) := by
    simp only [mbcStores, List.mem_cons, List.not_mem_nil, or_false] at hi
    rcases hi with rfl | rfl | rfl | rfl <;> rfl
  rw [hrow, inSession_next_iff, Host.Outcome.next.injEq]

theorem ControllerEffect.coherent {a : Addr} {s t : State} (h : ControllerEffect a s t) :
    t.out.Coherent a := by
  cases h with
  | report o _ hout => exact hout
  | applied b => exact (idleOut_coherent a).bsrResult _ _

/-- Driving the outputs writes no block state. -/
theorem State.sameBlock_withOut (s : State) (o : Outputs) : s.SameBlock (s.withOut o) where
  registers := ⟨rfl, rfl, rfl, rfl, rfl, rfl, rfl, rfl, rfl, rfl⟩
  rom := ⟨rfl, fun _ => rfl⟩
  wram _ := rfl
  hram _ := rfl

/-- Settles O39: a report leaves both bank registers, an applied switch writes both. -/
theorem controllerWritesTouchOnlyTheBankRegisters :
    Obligations.ControllerWritesTouchOnlyTheBankRegisters := by
  intro a v i s t hi ht
  obtain ⟨-, rfl⟩ := (exec_mbcStore_next_iff hi).1 ht
  have heff := mbcWrite_controllerEffect a v s
  generalize mbcWrite a v s = t at heff
  cases heff with
  | report o hcode =>
    obtain ⟨hreg, hrom, hwram, hhram⟩ := s.sameBlock_withOut o
    exact ⟨hrom, hwram, hhram, hreg, fun h => absurd h hcode, fun _ => hreg⟩
  | applied b =>
    obtain ⟨hreg, hrom, hwram, hhram⟩ := s.sameBlock_withOut (bsrResult .applied b (idleOut a))
    exact ⟨hrom, hwram, hhram, hreg, fun _ => ⟨rfl, bankStart_toNat b⟩, fun h => absurd rfl h⟩

/-! ### The invariant, update by update (R20 to R31) -/

section
variable {s : State} (h : s.Inv)
include h

theorem State.Inv.withOut (o : Outputs) : (s.withOut o).Inv :=
  { h with session := fun ha => { h.session ha with } }

theorem State.Inv.withPins (p : Pins) : (s.withPins p).Inv :=
  { h with session := fun ha => { h.session ha with } }

theorem State.Inv.withInputs {l : List Input} (hl : ∀ x ∈ l, x ∈ s.inputs) : (s.withInputs l).Inv :=
  { h with
    inputs_wf := fun x hx => h.inputs_wf x (hl x hx)
    session := fun ha => { h.session ha with } }

/-- A new image, while no RESET has sampled one: a session would have locked it. -/
theorem State.Inv.withRom {r : Rom} (hr : Rom.wf r = true) (hunlocked : s.romLocked = false) :
    (s.withRom (some r)).Inv :=
  { h with
    rom_wf := fun r' hr' => Option.some.inj hr' ▸ hr
    session := fun ha => absurd (h.session ha).image_locked (by simp [hunlocked]) }

/-- A switch keeps the window inside the image at the offset of its bank. -/
theorem State.Inv.withBank {b : BitVec 7} (hrange : bankStart b + romBankSize ≤ s.romSize)
    (hallowed : bankAllowed s.controllerType s.currentBank → bankAllowed s.controllerType b) :
    (s.withBank b (BitVec.ofNat 21 (bankStart b))).Inv :=
  { h with
    session := fun ha =>
      { h.session ha with
        window_in_image := by rw [State.withBank_romBankBase, bankStart_toNat]; exact hrange
        base_of_bank := bankStart_toNat b
        bank_allowed := hallowed (h.session ha).bank_allowed } }

theorem State.Inv.writeWram {b : Block} {o : Nat} (v : Byte) (hb : s.wram = some b)
    (ho : o < wramSize) : (s.withWram (some (b.write o v))).Inv :=
  { h with
    wram_wf := fun b' hb' => Option.some.inj hb' ▸ Block.wf_write v (h.wram_wf b hb) ho
    session := fun ha =>
      { h.session ha with
        wram_allocated := by
          obtain ⟨b', n, hb', hfill⟩ := (h.session ha).wram_allocated
          obtain rfl : b = b' := Option.some.inj (hb.symm.trans hb')
          exact ⟨_, n, rfl, by rw [Block.write_fill, hfill]⟩ } }

theorem State.Inv.writeHram {k : Nat} (v : Byte) (hk : k < hramSize) :
    (s.withHram (s.hram.write k v)).Inv :=
  { h with
    hram_wf := Block.wf_write v h.hram_wf hk
    session := fun ha =>
      { h.session ha with
        hram_zeroed := by rw [State.withHram_hram, Block.write_fill, (h.session ha).hram_zeroed] } }

theorem State.Inv.controllerEffect {a : Addr} {t : State} (he : ControllerEffect a s t) : t.Inv := by
  cases he with
  | report o => exact h.withOut o
  | applied b _ hrange hallowed => exact (h.withBank hrange hallowed).withOut _

theorem State.Inv.afterInit (a : Addr) : (afterInit a s).Inv :=
  { h with
    wram_wf := fun _ hb => nomatch hb
    session := fun ha => Bool.noConfusion ha }

theorem State.Inv.afterFailedReset (a : Addr) : (afterFailedReset a s).Inv :=
  { h with
    wram_wf := fun _ hb => nomatch hb
    hram_wf := Block.wf_fresh _ _
    session := fun ha => Bool.noConfusion ha }

theorem State.Inv.afterDeinit (a : Addr) : (afterDeinit a s).Inv :=
  { h with
    rom_wf := fun _ hr => nomatch hr
    wram_wf := fun _ hb => nomatch hb
    hram_wf := Block.wf_fresh _ _
    session := fun ha => Bool.noConfusion ha }

end

/-- Every variant may stand at bank 1. -/
theorem bankAllowed_one (ct : Controller) : bankAllowed ct 1#7 := by
  cases ct <;> simp [bankAllowed]

/-- A successful RESET starts a session, whatever the session before it was. -/
theorem afterReset_inv {s : State} {r : Rom} (a : Addr) (hr : s.rom = some r) (hrwf : Rom.wf r = true)
    (hsize : minRomSize ≤ r.size) (hconfig : s.config.wf = true)
    (hinputs : ∀ x ∈ s.inputs, Input.wf x = true) : (afterReset a r s).Inv where
  config_wf := hconfig
  rom_wf r' hr' := Option.some.inj (hr.symm.trans hr') ▸ hrwf
  wram_wf _ hb := Option.some.inj hb ▸ Block.wf_fresh _ _
  hram_wf := Block.wf_fresh _ _
  inputs_wf := hinputs
  session _ :=
    have hrom : (afterReset a r s).rom = some r := hr
    { rom_size := by rw [romSize_of_some hrom]; exact hsize
      wram_allocated := ⟨_, _, rfl, rfl⟩
      window_in_image := by
        have hend : (0x4000#21).toNat + romBankSize = minRomSize := by decide
        rw [romSize_of_some hrom]
        exact hend.trans_le hsize
      base_of_bank := by
        change (0x4000#21).toNat = (1#7).toNat * romBankSize
        decide
      variant_of_header := by simp [State.typeByte, afterReset, hr]
      bank_allowed := bankAllowed_one _
      wram_base := rfl
      hram_zeroed := rfl
      image_locked := rfl }

/-- Settles O45: the state after reset is what a RESET makes of the least image. -/
theorem invariantHoldsAtReset : Obligations.InvariantHoldsAtReset := by
  let s := { State.reset with draws := 1 }
  have hreset : afterReset 0#16 { size := 0x8000, cells := [] } s = State.reset := by decide
  have hinv := afterReset_inv (s := s) 0#16 rfl rfl (by decide) (by decide) (by simp [s, State.reset])
  rwa [hreset] at hinv

/-- Every request that completes keeps the invariant. -/
theorem State.Inv.exec {i : Instr} {s t : State} (h : s.Inv) (ht : exec i s = .next t) : t.Inv := by
  cases exec_effect ht with
  | answer o => exact h.withOut o
  | bankWrite a v => exact h.controllerEffect (mbcWrite_controllerEffect a v s)
  | wramWrite a b o v _ _ hb ho => exact (h.writeWram v hb ho).withOut _
  | hramWrite a k v _ _ hk => exact (h.writeHram v hk).withOut _
  | init a => exact h.afterInit a
  | reset a r _ hr hsize => exact afterReset_inv a hr (h.rom_wf r hr) hsize h.config_wf h.inputs_wf
  | failedReset a => exact h.afterFailedReset a
  | deinit a => exact h.afterDeinit a

/-- The state a request of a cycle runs in keeps the invariant. -/
theorem State.Inv.presented {s : State} {c : Cycle} {l : List Input} (h : s.Inv)
    (hi : s.inputs = .cycle c :: l) : ((s.withInputs l).withPins c.pins).Inv :=
  (h.withInputs fun _ hx => hi ▸ List.mem_cons_of_mem _ hx).withPins c.pins

/-- Settles O46, effect by effect of a step. -/
theorem invariantIsKeptByEveryStep : Obligations.InvariantIsKeptByEveryStep := by
  intro s t h ht
  cases step_effect ht with
  | idle l hl => exact (h.withOut _).withInputs hl
  | image r l hi hunlocked =>
    have hr : Rom.wf r = true := h.inputs_wf (.loadImage r) (hi ▸ List.mem_cons_self)
    have hl : ∀ x ∈ l, x ∈ s.inputs := fun x hx => hi ▸ List.mem_cons_of_mem _ hx
    exact ((h.withOut (dropDiag s.out)).withInputs hl).withRom hr hunlocked
  | request c l i t hi _ _ ht => exact (h.presented hi).exec ht

end Sys2Proof.Machine

/-! PROOFS. What every request does or leaves alone: its outputs, the write-enable decode, admission and
completion (10_state.md sections 1 to 4, 40_decoder.md R120, 60_exceptions.md R221 to R225). -/

namespace Sys2Proof.Machine

/-! ### The outputs of every request -/

theorem respond_coherent {s t : State} {a : Addr} {o : Outputs} (ho : o.Coherent a)
    (h : inSession s (respond s o) = .next t) : t.out.Coherent a := by
  obtain ⟨-, h⟩ := inSession_next_iff.1 h
  rw [respond_next_iff.1 h]; exact ho

theorem wide_coherent {s t : State} {a : Addr} {o : Outputs} (ho : o.Coherent a)
    (h : inSessionWide s (respond s o) = .next t) : t.out.Coherent a := by
  obtain ⟨-, -, h⟩ := inSessionWide_next_iff.1 h
  rw [respond_next_iff.1 h]; exact ho

theorem load_coherent {s t : State} {a : Addr} {x : Except Fault Byte}
    (h : inSession s (completeLoad s a x) = .next t) : t.out.Coherent a := by
  obtain ⟨-, h⟩ := inSession_next_iff.1 h
  obtain ⟨b, -, rfl⟩ := completeLoad_next_iff.1 h
  exact loadOut_coherent a b

theorem store_coherent {s t : State} {a : Addr} {x : Except Fault State}
    (h : inSession s (completeStore a x) = .next t) : t.out.Coherent a := by
  obtain ⟨-, h⟩ := inSession_next_iff.1 h
  obtain ⟨u, -, rfl⟩ := completeStore_next_iff.1 h
  exact idleOut_coherent a

theorem mbcStore_coherent {i : Instr} {s t : State} {a : Addr} {v : Byte} (hi : i ∈ mbcStores a v)
    (h : exec i s = .next t) : t.out.Coherent a := by
  obtain ⟨-, rfl⟩ := (exec_mbcStore_next_iff hi).1 h
  exact (mbcWrite_controllerEffect a v s).coherent

/-- Everything a RESET that completes can do (R252). -/
theorem execReset_next {s t : State} {a : Addr} (h : execReset a s = .next t) :
    ∃ r, s.rom = some r ∧ minRomSize ≤ r.size ∧
      (if s.pins.allocOk then afterReset a r s else afterFailedReset a s) = t := by
  unfold execReset at h
  split at h
  · cases h
  · next r hr =>
    split at h
    · cases h
    · next hsize => exact ⟨r, hr, Nat.not_lt.1 hsize, Host.Outcome.next.inj h⟩

theorem reset_coherent {s t : State} {a : Addr} (h : execReset a s = .next t) :
    t.out.Coherent a := by
  obtain ⟨r, -, -, rfl⟩ := execReset_next h
  split
  · exact resetOut_coherent a _
  · exact ((idleOut_coherent a).withResetStatus .fail).raise (by decide) _

/-- Every request that completes drives coherent outputs for its address. -/
theorem exec_coherent {i : Instr} {s t : State} (h : exec i s = .next t) :
    t.out.Coherent i.addr := by
  cases i with
  | ld8Rom0 a | ld8RomN a | ld8Wram0 a | ld8WramN a | ld8Echo0 a | ld8Echo1 a | ld8Echo2 a
  | ld8Echo3 a | ld8Hram0 a | ld8Hram1 a | ld8Hram2 a | ld8Hram3 a | ld8Hram4 a | ld8Hram5 a
  | ld8Hram6 a => exact load_coherent h
  | st8Wram0 a v | st8WramN a v | st8Echo0 a v | st8Echo1 a v | st8Echo2 a v | st8Echo3 a v
  | st8Hram0 a v | st8Hram1 a v | st8Hram2 a v | st8Hram3 a v | st8Hram4 a v | st8Hram5 a v
  | st8Hram6 a v => exact store_coherent h
  | st8MbcS0 a v | st8MbcS1 a v | st8MbcS2 a v | st8MbcS3 a v =>
    exact mbcStore_coherent (a := a) (v := v) (by simp [mbcStores]) h
  | ld8Vram a => exact respond_coherent (vramReadOut_coherent a _) h
  | st8Vram a v => exact respond_coherent (vramWriteOut_coherent a v) h
  | ld8Io a | ld8Ie a => exact respond_coherent (ioReadOut_coherent a _ _) h
  | st8Io a v | st8Ie a v => exact respond_coherent (ioWriteOut_coherent a v _) h
  | ld8Extram a | ld8Oam0 a | ld8Oam1 a =>
    exact respond_coherent ((loadOut_coherent a _).raise (by decide) _) h
  | st8Extram a v | st8Oam0 a v | st8Oam1 a v =>
    exact respond_coherent ((idleOut_coherent a).raise (by decide) _) h
  | ld8Unusable0 a | ld8Unusable1 a => exact respond_coherent (loadOut_coherent a _) h
  | st8Unusable0 a v | st8Unusable1 a v => exact respond_coherent (idleOut_coherent a) h
  | ld16 a => exact wide_coherent ((idleOut_coherent a).raise (by decide) _) h
  | st16 a d => exact wide_coherent ((idleOut_coherent a).raise (by decide) _) h
  | init a =>
    obtain rfl : afterInit a s = t := Host.Outcome.next.inj h
    exact idleOut_coherent a
  | deinit a =>
    obtain rfl : afterDeinit a s = t := Host.Outcome.next.inj h
    exact idleOut_coherent a
  | reset a => exact reset_coherent h

/-- Settles O52: the strobes and the calls are driven together. -/
theorem strobesAgreeWithTheCalls : Obligations.StrobesAgreeWithTheCalls := by
  intro i s t h
  have hc := exec_coherent h
  exact ⟨hc.vram_read, hc.vram_write, hc.vram_notify, hc.io_read, hc.io_write, hc.no_call,
    hc.diag_valid, hc.diag_info⟩

/-! ### Requests that write no block state (R70) -/

theorem sameBlock_of_respond {s t : State} {o : Outputs} (h : inSession s (respond s o) = .next t) :
    s.SameBlock t := by
  obtain ⟨-, h⟩ := inSession_next_iff.1 h
  rw [respond_next_iff.1 h]; exact s.sameBlock_withOut o

theorem sameBlock_of_wide {s t : State} {o : Outputs}
    (h : inSessionWide s (respond s o) = .next t) : s.SameBlock t := by
  obtain ⟨-, -, h⟩ := inSessionWide_next_iff.1 h
  rw [respond_next_iff.1 h]; exact s.sameBlock_withOut o

theorem sameBlock_of_load {s t : State} {a : Addr} {x : Except Fault Byte}
    (h : inSession s (completeLoad s a x) = .next t) : s.SameBlock t := by
  obtain ⟨-, h⟩ := inSession_next_iff.1 h
  obtain ⟨b, -, rfl⟩ := completeLoad_next_iff.1 h
  exact s.sameBlock_withOut _

/-- Settles O27: the rows outside the excluded ones complete by driving outputs alone. -/
theorem loadsAndDelegatedStoresWriteNoBlockState :
    Obligations.LoadsAndDelegatedStoresWriteNoBlockState := by
  intro i s t h hlife hmbc hwram0 hwramN hecho hhram
  cases i with
  | ld8Rom0 a | ld8RomN a | ld8Wram0 a | ld8WramN a | ld8Echo0 a | ld8Echo1 a | ld8Echo2 a
  | ld8Echo3 a | ld8Hram0 a | ld8Hram1 a | ld8Hram2 a | ld8Hram3 a | ld8Hram4 a | ld8Hram5 a
  | ld8Hram6 a => exact sameBlock_of_load h
  | st8MbcS0 a v | st8MbcS1 a v | st8MbcS2 a v | st8MbcS3 a v =>
    exact absurd (by simp [mbcStores]) (hmbc a v)
  | st8Wram0 a v => exact absurd rfl (hwram0 a v)
  | st8WramN a v => exact absurd rfl (hwramN a v)
  | st8Echo0 a v | st8Echo1 a v | st8Echo2 a v | st8Echo3 a v =>
    exact absurd (by simp [echoStores]) (hecho a v)
  | st8Hram0 a v | st8Hram1 a v | st8Hram2 a v | st8Hram3 a v | st8Hram4 a v | st8Hram5 a v
  | st8Hram6 a v => exact absurd (by simp [hramStores]) (hhram a v)
  | ld16 a => exact sameBlock_of_wide h
  | st16 a d => exact sameBlock_of_wide h
  | init a | reset a | deinit a => exact Bool.noConfusion hlife
  | _ => exact sameBlock_of_respond h

/-! ### No output is read (R221, R225) -/

theorem writeWram_withOut (s : State) (o : Outputs) (k : Nat) (v : Byte) :
    (s.withOut o).writeWram k v = (s.writeWram k v).map (·.withOut o) := by
  unfold State.writeWram
  rw [State.withOut_wram]
  cases s.wram with
  | none => rfl
  | some b => by_cases hk : k < wramSize <;> simp only [hk] <;> rfl

theorem writeHram_withOut (s : State) (o : Outputs) (k : Nat) (v : Byte) :
    (s.withOut o).writeHram k v = (s.writeHram k v).map (·.withOut o) := by
  unfold State.writeHram
  by_cases hk : k < hramSize <;> simp only [hk] <;> rfl

/-- A store drives every output anew. -/
theorem completeStore_map_withOut (a : Addr) (x : Except Fault State) (o : Outputs) :
    completeStore a (x.map (·.withOut o)) = completeStore a x := by
  cases x <;> rfl

theorem completeLoad_withOut (s : State) (a : Addr) (x : Except Fault Byte) (o : Outputs) :
    completeLoad (s.withOut o) a x = completeLoad s a x := by
  cases x <;> rfl

theorem storeWram_withOut (s : State) (a : Addr) (k : Nat) (v : Byte) (o : Outputs) :
    inSession (s.withOut o) (completeStore a ((s.withOut o).writeWram k v)) =
      inSession s (completeStore a (s.writeWram k v)) := by
  rw [writeWram_withOut, completeStore_map_withOut]; rfl

theorem storeHram_withOut (s : State) (a : Addr) (v : Byte) (o : Outputs) :
    storeHram a v (s.withOut o) = storeHram a v s := by
  unfold storeHram
  rw [writeHram_withOut, completeStore_map_withOut]; rfl

/-- Loads and stores of a byte match on what the memory answers; every other meaning copies the state's
fields one by one, and never the outputs. -/
theorem exec_withOut (i : Instr) (s : State) (o : Outputs) : exec i (s.withOut o) = exec i s := by
  cases i with
  | ld8Rom0 a | ld8RomN a | ld8Wram0 a | ld8WramN a | ld8Echo0 a | ld8Echo1 a | ld8Echo2 a
  | ld8Echo3 a | ld8Hram0 a | ld8Hram1 a | ld8Hram2 a | ld8Hram3 a | ld8Hram4 a | ld8Hram5 a
  | ld8Hram6 a => exact congrArg (inSession s) (completeLoad_withOut s a _ o)
  | st8Wram0 a v | st8WramN a v | st8Echo0 a v | st8Echo1 a v | st8Echo2 a v | st8Echo3 a v =>
    exact storeWram_withOut s a _ v o
  | st8Hram0 a v | st8Hram1 a v | st8Hram2 a v | st8Hram3 a v | st8Hram4 a v | st8Hram5 a v
  | st8Hram6 a v => exact storeHram_withOut s a v o
  | _ => rfl

/-- Settles O51, meaning by meaning. -/
theorem outputsInfluenceNothing : Obligations.OutputsInfluenceNothing := exec_withOut

/-! ### The write-enable decode (R24) -/

theorem eq_st8MbcS1_of_slotOf {i : Instr} {a : Addr} {v : Byte} (hi : i ∈ mbcStores a v)
    (hw : WellFormed i) (hslot : slotOf a = 1#3) : i = .st8MbcS1 a v := by
  have hone : a.toNat / 0x2000 = 1 := (slotOf_eq_iff a _).1 hslot
  simp only [mbcStores, List.mem_cons, List.not_mem_nil, or_false] at hi
  rcases hi with rfl | rfl | rfl | rfl
  · obtain ⟨-, hhi⟩ := Laws.inRange_iff.1 hw
    omega
  · rfl
  all_goals
    obtain ⟨hlo, -⟩ := Laws.inRange_iff.1 hw
    omega

/-- Settles O49: a byte store or an answer leaves every register, and a controller write those it does
not switch. -/
theorem onlyTheListedRequestsWriteRegisters : Obligations.OnlyTheListedRequestsWriteRegisters := by
  intro i s t hw hlife ht
  cases exec_effect ht with
  | answer o => exact ⟨rfl, rfl, rfl, rfl, rfl, by simp⟩
  | wramWrite a b o v => exact ⟨rfl, rfl, rfl, rfl, rfl, by simp⟩
  | hramWrite a k v => exact ⟨rfl, rfl, rfl, rfl, rfl, by simp⟩
  | bankWrite a v hi =>
    have heff := mbcWrite_controllerEffect a v s
    generalize mbcWrite a v s = t at heff
    cases heff with
    | report o => exact ⟨rfl, rfl, rfl, rfl, rfl, by simp⟩
    | applied b hslot =>
      exact ⟨rfl, rfl, rfl, rfl, rfl, fun _ => ⟨rfl, a, v, eq_st8MbcS1_of_slotOf hi hw hslot⟩⟩
  | init a hi | reset a r hi | failedReset a r hi | deinit a hi =>
    subst hi
    exact Bool.noConfusion hlife

/-! ### Admission (R30, R120) -/

theorem exec_noSession {i : Instr} {s : State} (ha : s.active = false) (hi : isLifecycle i = false) :
    exec i s = .refused .noSession := by
  cases i with
  | init a | reset a | deinit a => exact Bool.noConfusion hi
  | _ => exact inSession_inactive ha _

theorem resetOut_resetStatus (a : Addr) (t : Byte) : (resetOut a t).resetStatus = .ok := by
  unfold resetOut; split <;> rfl

/-- Settles O44: every row but the lifecycle ones asks for the session bit, which of those only a RESET that
reports OK sets. -/
theorem noSessionRefusesEveryAccess : Obligations.NoSessionRefusesEveryAccess := by
  refine ⟨fun _ _ => exec_noSession, fun i s t hi ht hstatus => ?_⟩
  cases i with
  | init a =>
    obtain rfl : afterInit a s = t := Host.Outcome.next.inj ht
    rfl
  | deinit a =>
    obtain rfl : afterDeinit a s = t := Host.Outcome.next.inj ht
    rfl
  | reset a =>
    obtain ⟨r, -, -, rfl⟩ := execReset_next ht
    cases hok : s.pins.allocOk with
    | false => simp [afterFailedReset]
    | true => exact absurd (by simp [hok, afterReset, resetOut_resetStatus]) hstatus
  | _ => exact Bool.noConfusion hi

/-! ### Completion (R120, R223) -/

theorem State.Inv.wramBase_le {s : State} (h : s.Inv) (ha : s.active = true) :
    s.workingRamBankBase.toNat ≤ 0x1000 := by
  rw [(h.session ha).wram_base]
  exact of_decide_eq_true h.config_wf

theorem State.Session.exists_readWram {s : State} (h : s.Session) {o : Nat} (ho : o < wramSize) :
    ∃ v, s.readWram o = .ok v := by
  obtain ⟨b, -, hb, -⟩ := h.wram_allocated
  exact ⟨_, readWram_ok hb ho⟩

theorem exists_readRom {s : State} {o : Nat} (ho : o < s.romSize) :
    ∃ v, s.readRom o = .ok v := by
  obtain ⟨r, hr, hsize⟩ := exists_rom_of_romSize_pos (Nat.zero_lt_of_lt ho)
  exact ⟨_, readRom_ok hr (hsize ▸ ho)⟩

theorem load_completes {s : State} {a : Addr} {x : Except Fault Byte} (ha : s.active = true)
    (hx : ∃ v, x = .ok v) : ∃ t, inSession s (completeLoad s a x) = .next t := by
  obtain ⟨v, hv⟩ := hx
  exact ⟨_, inSession_completeLoad ha hv⟩

theorem storeWram_completes {s : State} {a : Addr} {o : Nat} (v : Byte) (h : s.Session)
    (ha : s.active = true) (ho : o < wramSize) :
    ∃ t, inSession s (completeStore a (s.writeWram o v)) = .next t := by
  obtain ⟨b, -, hb, -⟩ := h.wram_allocated
  obtain ⟨t, ht, -⟩ := inSession_writeWram a v ha hb ho
  exact ⟨t, ht⟩

theorem loadHram_completes {i : Instr} {a : Addr} {s : State} (ha : s.active = true)
    (hi : i ∈ hramLoads a) (hw : WellFormed i) : ∃ t, exec i s = .next t := by
  obtain ⟨hexec, hidx⟩ := exec_hramLoad hi hw s
  exact ⟨_, hexec.trans (inSession_completeLoad ha (readHram_ok hidx))⟩

theorem storeHram_completes {i : Instr} {a : Addr} {v : Byte} {s : State} (ha : s.active = true)
    (hi : i ∈ hramStores a v) (hw : WellFormed i) : ∃ t, exec i s = .next t := by
  obtain ⟨hexec, hidx⟩ := exec_hramStore hi hw s
  exact ⟨_, hexec.trans (inSession_completeStore ha (writeHram_ok_iff.2 ⟨hidx, rfl⟩))⟩

theorem reset_completes {a : Addr} {s : State} (h : s.Session) : ∃ t, exec (.reset a) s = .next t := by
  have hmin : 0 < minRomSize := by decide
  obtain ⟨r, hr, hsize⟩ := exists_rom_of_romSize_pos (hmin.trans_le h.rom_size)
  refine ⟨if s.pins.allocOk then afterReset a r s else afterFailedReset a s, ?_⟩
  change execReset a s = _
  rw [execReset, hr]
  exact if_neg (Nat.not_lt.2 (hsize ▸ h.rom_size))

theorem wide_completes {s : State} {o : Outputs} (ha : s.active = true) :
    (∃ t, inSessionWide s (respond s o) = .next t) ∨
      s.config.strictUnimpl = true ∧ inSessionWide s (respond s o) = .refused .strictUnimpl := by
  cases hs : s.config.strictUnimpl with
  | false => exact .inl ⟨_, inSessionWide_respond ha hs o⟩
  | true => exact .inr ⟨rfl, inSessionWide_strict ha hs _⟩

/-- In a session a well-formed request completes, or is a wide access that STRICT_UNIMPL refuses. -/
theorem exec_in_session {i : Instr} {s : State} (h : s.Inv) (ha : s.active = true)
    (hw : WellFormed i) : (∃ t, exec i s = .next t) ∨
      s.config.strictUnimpl = true ∧ exec i s = .refused .strictUnimpl := by
  have hs := h.session ha
  have hbankN (a : Addr) : wramNOffset s a < wramSize := wramNOffset_lt (h.wramBase_le ha) a
  cases i with
  | ld16 a => exact wide_completes ha
  | st16 a d => exact wide_completes ha
  | ld8Rom0 a =>
    have hoff : rom0Offset a < s.romSize :=
      ((romIndex_lt a).trans (by decide)).trans_le hs.rom_size
    exact .inl (load_completes ha (exists_readRom hoff))
  | ld8RomN a =>
    have hoff : romNOffset s a < s.romSize :=
      (Nat.add_lt_add_left (romIndex_lt a) _).trans_le hs.window_in_image
    exact .inl (load_completes ha (exists_readRom hoff))
  | ld8Wram0 a => exact .inl (load_completes ha (hs.exists_readWram (wram0Offset_lt a)))
  | ld8WramN a | ld8Echo0 a | ld8Echo1 a | ld8Echo2 a | ld8Echo3 a =>
    exact .inl (load_completes ha (hs.exists_readWram (hbankN a)))
  | ld8Hram0 a | ld8Hram1 a | ld8Hram2 a | ld8Hram3 a | ld8Hram4 a | ld8Hram5 a | ld8Hram6 a =>
    exact .inl (loadHram_completes (a := a) ha (by simp [hramLoads]) hw)
  | st8MbcS0 a v | st8MbcS1 a v | st8MbcS2 a v | st8MbcS3 a v =>
    exact .inl ⟨_, exec_mbcStore (a := a) (v := v) (by simp [mbcStores]) ha⟩
  | st8Wram0 a v => exact .inl (storeWram_completes v hs ha (wram0Offset_lt a))
  | st8WramN a v | st8Echo0 a v | st8Echo1 a v | st8Echo2 a v | st8Echo3 a v =>
    exact .inl (storeWram_completes v hs ha (hbankN a))
  | st8Hram0 a v | st8Hram1 a v | st8Hram2 a v | st8Hram3 a v | st8Hram4 a v | st8Hram5 a v
  | st8Hram6 a v => exact .inl (storeHram_completes (a := a) (v := v) ha (by simp [hramStores]) hw)
  | init a => exact .inl ⟨_, rfl⟩
  | deinit a => exact .inl ⟨_, rfl⟩
  | reset a => exact .inl (reset_completes hs)
  | _ => exact .inl ⟨_, inSession_respond ha _⟩

/-- Settles O48: without STRICT_UNIMPL the refusal is excluded. -/
theorem everyAdmittedRequestCompletes : Obligations.EveryAdmittedRequestCompletes := by
  intro i s h ha hstrict hw
  rcases exec_in_session h ha hw with ht | ⟨hon, -⟩
  · exact ht
  · exact absurd (hstrict.symm.trans hon) (by decide)

theorem lifecycle_ne_fault {i : Instr} (s : State) (f : Fault) (hi : isLifecycle i = true) :
    exec i s ≠ .fault f := by
  cases i with
  | init a | deinit a => exact nofun
  | reset a =>
    change execReset a s ≠ _
    unfold execReset
    split
    · exact nofun
    · split <;> exact nofun
  | _ => exact Bool.noConfusion hi

theorem exec_ne_fault {i : Instr} {s : State} (h : s.Inv) (hw : WellFormed i) (f : Fault) :
    exec i s ≠ .fault f := by
  intro hf
  cases ha : s.active with
  | true =>
    rcases exec_in_session h ha hw with ⟨t, ht⟩ | ⟨-, hr⟩
    · exact absurd (ht.symm.trans hf) nofun
    · exact absurd (hr.symm.trans hf) nofun
  | false =>
    cases hi : isLifecycle i with
    | true => exact lifecycle_ne_fault s f hi hf
    | false => simp [exec_noSession ha hi] at hf

end Sys2Proof.Machine

/-! PROOFS. The step (10_state.md section 4, 40_decoder.md R120, 60_exceptions.md R223 to R225,
70_reset_and_hazards.md R258, R261). -/

namespace Sys2Proof.Machine

/-! ### The step, input by input -/

section
variable {s : State} {c : Cycle} {l : List Input}

theorem step_of_nil (hi : s.inputs = []) : step s = .next (s.withOut (dropDiag s.out)) := by
  simp only [step, takeInput_nil hi]

theorem step_of_idle (hi : s.inputs = .cycle c :: l) (hv : c.reqValid = false) :
    step s = .next ((s.withOut (dropDiag s.out)).withInputs l) := by
  simp only [step, takeInput_idle hi hv]

theorem step_of_image {r : Rom} (hi : s.inputs = .loadImage r :: l) :
    step s = supplyImage r ((s.withOut (dropDiag s.out)).withInputs l) := by
  simp only [step, takeInput_image hi]

theorem step_of_request {i : Instr} (hi : s.inputs = .cycle c :: l) (hv : c.reqValid = true)
    (hd : decode c.word = .ok i) : step s = exec i ((s.withInputs l).withPins c.pins) := by
  simp only [step, takeInput_request hi hv, hd]

end

/-- Settles O53: the cycle is taken, and its signals presented, before the request runs. -/
theorem stepRunsTheDecodedRequest : Obligations.StepRunsTheDecodedRequest :=
  fun _ _ _ _ => step_of_request

/-- Settles O55, input by input. -/
theorem idleCyclesAndTheLoader : Obligations.IdleCyclesAndTheLoader := by
  intro s o
  refine ⟨step_of_nil, fun c l => step_of_idle, fun r l hi hk => ?_, fun r l hi hk => ?_⟩
  · exact (step_of_image hi).trans (if_neg (by simp [hk]))
  · exact (step_of_image hi).trans (if_pos (by simp [hk]))

theorem requestOfNat_toNat (w : RequestWord) : requestOfNat w.toNat = w := by
  rw [requestOfNat, if_pos w.isLt, BitVec.ofNat_toNat, BitVec.setWidth_eq]

/-- Settles O54: the word is the instruction's own, and taking it restores the inputs and the pins. -/
theorem fetchedWordRunsNext : Obligations.FetchedWordRunsNext := by
  intro i s nbits hw
  rw [State.withFetchWord, requestOfNat_toNat]
  exact step_of_request (s := presentWord s (encode i)) rfl rfl (decode_encode hw)

/-- Settles O47: what the decoder answers is well-formed, and nothing but a request can fault. -/
theorem noStepFaults : Obligations.NoStepFaults := by
  intro s f h hf
  match hi : s.inputs with
  | [] => simp [step_of_nil hi] at hf
  | .loadImage r :: l =>
    rw [step_of_image hi] at hf
    unfold supplyImage at hf
    split at hf <;> cases hf
  | .cycle c :: l =>
    cases hv : c.reqValid with
    | false => simp [step_of_idle hi hv] at hf
    | true =>
      cases hd : decode c.word with
      | error e =>
        rw [step_of_decode_error hi hv hd] at hf
        cases e; cases hf
      | ok i =>
        rw [step_of_request hi hv hd] at hf
        exact exec_ne_fault (h.presented hi) (wellFormed_of_decode hd) f hf

/-! ### The parameters and the image (R26, R48, R261) -/

theorem mbcWrite_keeps_image (a : Addr) (v : Byte) (s : State) :
    (mbcWrite a v s).config = s.config ∧ (mbcWrite a v s).rom = s.rom ∧
      (mbcWrite a v s).romLocked = s.romLocked := by
  have heff := mbcWrite_effect a v s
  generalize mbcWrite a v s = t at heff
  cases heff <;> exact ⟨rfl, rfl, rfl⟩

theorem exec_config {i : Instr} {s t : State} (h : exec i s = .next t) : t.config = s.config := by
  cases exec_effect h with
  | bankWrite a v => exact (mbcWrite_keeps_image a v s).1
  | _ => rfl

/-- A request that completes leaves a locked image alone, unless it is the DEINIT that releases it. -/
theorem exec_locked_image {i : Instr} {s t : State} (h : exec i s = .next t)
    (hlocked : s.romLocked = true) : t.rom = s.rom ∧ t.romLocked = true ∨
      ∃ a, i = .deinit a ∧ t = afterDeinit a s := by
  cases exec_effect h with
  | deinit a hi => exact .inr ⟨a, hi, rfl⟩
  | bankWrite a v =>
    obtain ⟨-, hrom, hlock⟩ := mbcWrite_keeps_image a v s
    exact .inl ⟨hrom, hlock.trans hlocked⟩
  | reset a | failedReset a => exact .inl ⟨rfl, rfl⟩
  | _ => exact .inl ⟨rfl, hlocked⟩

/-- Settles O50: the loader is refused while the image is locked, and of the requests only DEINIT
releases it. -/
theorem theImageIsConstantUntilDeinit : Obligations.TheImageIsConstantUntilDeinit := by
  intro s t h
  cases step_effect h with
  | idle l => exact ⟨rfl, fun hlocked => .inl ⟨rfl, hlocked⟩⟩
  | image r l _ hunlocked =>
    exact ⟨rfl, fun hlocked => absurd (hunlocked.symm.trans hlocked) (by decide)⟩
  | request c l i t hi hv hd ht =>
    have hconfig : t.config = s.config := (exec_config ht :)
    refine ⟨hconfig, fun hlocked => (exec_locked_image ht (by exact hlocked)).imp_right ?_⟩
    rintro ⟨a, rfl, rfl⟩
    exact ⟨rfl, rfl, rfl, c, l, a, hi, hv, hd⟩

/-! ### Diagnostics (R46, R225) -/

/-- Settles O60: an idle cycle and an image drop the diagnostic, and a request does not see the outputs of
before. -/
theorem diagnosticIsVisibleOnlyInItsRequestsCycle :
    Obligations.DiagnosticIsVisibleOnlyInItsRequestsCycle := by
  intro s t h hdiag
  cases step_effect h with
  | idle l => simp at hdiag
  | image r l => simp at hdiag
  | request c l i t hi hv hd ht =>
    refine ⟨c, l, i, hi, hv, hd, fun o => ?_⟩
    exact (exec_withOut i ((s.withInputs l).withPins c.pins) o).trans ht

end Sys2Proof.Machine

/-! PROOFS. The address decode: the regions of the address map and their match and mask pairs
(20_memory.md R62, R63, 30_encoding.md R94, 10_state.md R42). -/

namespace Sys2Proof.Machine

/-! ### The ranges of the regions (R62) -/

/-- The first address of a region in the address map. -/
def Region.first : Region → Nat
  | .rom0 => 0x0000
  | .romN => 0x4000
  | .vram => 0x8000
  | .extram => 0xA000
  | .wram0 => 0xC000
  | .wramN => 0xD000
  | .echo => 0xE000
  | .oam => 0xFE00
  | .unusable => 0xFEA0
  | .io => 0xFF00
  | .hram => 0xFF80
  | .ie => 0xFFFF

/-- The last address of a region in the address map. -/
def Region.last : Region → Nat
  | .rom0 => 0x3FFF
  | .romN => 0x7FFF
  | .vram => 0x9FFF
  | .extram => 0xBFFF
  | .wram0 => 0xCFFF
  | .wramN => 0xDFFF
  | .echo => 0xFDFF
  | .oam => 0xFE9F
  | .unusable => 0xFEFF
  | .io => 0xFF7F
  | .hram => 0xFFFE
  | .ie => 0xFFFF

/-- The number of an address lies in the range of the region. -/
def Region.Contains (r : Region) (n : Nat) : Prop := r.first ≤ n ∧ n ≤ r.last

/-- The top bits of an address, as a quotient. -/
theorem topBits_eq_iff (a : Addr) {k n : Nat} (hkn : k + n = 16) (x : BitVec n) :
    a.extractLsb' k n = x ↔ a.toNat / 2 ^ k = x.toNat := by
  have hlt : a.toNat / 2 ^ k < 2 ^ n :=
    Nat.div_lt_of_lt_mul (by rw [← Nat.pow_add, hkn]; exact a.isLt)
  rw [← BitVec.toNat_inj, BitVec.extractLsb'_toNat, Nat.shiftRight_eq_div_pow, Nat.mod_eq_of_lt hlt]

/-- R94: the decode by the top bits puts every address inside its region's range. -/
theorem regionOf_contains (a : Addr) : (regionOf a).Contains a.toNat := by
  have ha := a.isLt
  unfold regionOf
  simp only [topBits_eq_iff a (k := 14) (n := 2) rfl, topBits_eq_iff a (k := 13) (n := 3) rfl,
    topBits_eq_iff a (k := 12) (n := 4) rfl, BitVec.toNat_ofNat, Nat.reducePow, Nat.reduceMod]
  repeat' apply iteInduction (motive := (Region.Contains · a.toNat)) <;> intro
  all_goals
    simp only [Region.Contains, Region.first, Region.last]
    omega

/-- R63: the ranges of two regions are disjoint. -/
theorem Region.ranges_disjoint (r r' : Region) : r = r' ∨ r.last < r'.first ∨ r'.last < r.first := by
  cases r <;> cases r' <;> decide

theorem regionOf_eq_iff (a : Addr) (r : Region) :
    regionOf a = r ↔ r.Contains a.toNat := by
  have hrange := regionOf_contains a
  constructor
  · rintro rfl
    exact hrange
  · intro h
    obtain ⟨hlo, hhi⟩ := h
    obtain ⟨hlo', hhi'⟩ := hrange
    rcases Region.ranges_disjoint (regionOf a) r with heq | hlt | hlt
    · exact heq
    all_goals omega

theorem Region.id_injective : Function.Injective Region.id := by
  intro r r' h
  revert h
  cases r <;> cases r' <;> decide

theorem regionId_eq_iff (a : Addr) (r : Region) :
    regionId a = r.id ↔ r.Contains a.toNat :=
  Region.id_injective.eq_iff.trans (regionOf_eq_iff a r)

/-- Settles O6, region by region. -/
theorem regionsFollowTheAddressMap : Obligations.RegionsFollowTheAddressMap := by
  intro a
  have ha := a.isLt
  refine ⟨(regionId_eq_iff a .rom0).trans (and_iff_right (Nat.zero_le _)), regionId_eq_iff a .romN,
    regionId_eq_iff a .vram, regionId_eq_iff a .extram, regionId_eq_iff a .wram0,
    regionId_eq_iff a .wramN, regionId_eq_iff a .echo, regionId_eq_iff a .oam,
    regionId_eq_iff a .unusable, regionId_eq_iff a .io, regionId_eq_iff a .hram,
    (regionId_eq_iff a .ie).trans ?_⟩
  simp only [Region.Contains, Region.first, Region.last]
  omega

/-! ### Match and mask pairs (R94) -/

/-- The addresses that agree with `lo` above bit `k` are the `2 ^ k` addresses from `lo`. -/
theorem match_iff_range (a : Addr) (k lo : Nat) (hk : k ≤ 16) (hlo : 2 ^ k ∣ lo) (hlt : lo < 2 ^ 16) :
    a &&& BitVec.ofNat 16 (2 ^ 16 - 2 ^ k) = BitVec.ofNat 16 lo ↔
      lo ≤ a.toNat ∧ a.toNat < lo + 2 ^ k := by
  have hmask : 2 ^ 16 - 2 ^ k < 2 ^ 16 := Nat.sub_lt (Nat.two_pow_pos _) (Nat.two_pow_pos k)
  rw [← BitVec.toNat_inj, BitVec.toNat_and, BitVec.toNat_ofNat, BitVec.toNat_ofNat,
    Nat.mod_eq_of_lt hmask, Nat.mod_eq_of_lt hlt, and_highMask hk a.isLt, div_mul_two_pow_eq_iff hlo]

/-- One pair selects a whole range. -/
theorem range_iff_match (a : Addr) (k lo : Nat) {hi : Nat} (hk : k ≤ 16 := by decide)
    (hlo : 2 ^ k ∣ lo := by decide) (hlt : lo < 2 ^ 16 := by decide)
    (hhi : hi + 1 = lo + 2 ^ k := by decide) :
    lo ≤ a.toNat ∧ a.toNat ≤ hi ↔
      a &&& BitVec.ofNat 16 (2 ^ 16 - 2 ^ k) = BitVec.ofNat 16 lo := by
  rw [match_iff_range a k lo hk hlo hlt]
  omega

/-- A pair selects the start of a range, and further pairs the rest. -/
theorem range_iff_match_or (a : Addr) (k lo : Nat) {hi : Nat} {P : Prop}
    (hrest : lo + 2 ^ k ≤ a.toNat ∧ a.toNat ≤ hi ↔ P) (hk : k ≤ 16 := by decide)
    (hlo : 2 ^ k ∣ lo := by decide) (hlt : lo < 2 ^ 16 := by decide)
    (hhi : lo + 2 ^ k ≤ hi := by decide) :
    lo ≤ a.toNat ∧ a.toNat ≤ hi ↔
      a &&& BitVec.ofNat 16 (2 ^ 16 - 2 ^ k) = BitVec.ofNat 16 lo ∨ P := by
  rw [match_iff_range a k lo hk hlo hlt, ← hrest]
  omega

/-- Settles O7: each region's range is cut into the ranges of its pairs. -/
theorem regionsAgreeWithMatchMaskPairs : Obligations.RegionsAgreeWithMatchMaskPairs := by
  intro a
  refine ⟨(regionId_eq_iff a .rom0).trans (range_iff_match a 14 0x0000),
    (regionId_eq_iff a .romN).trans (range_iff_match a 14 0x4000),
    (regionId_eq_iff a .vram).trans (range_iff_match a 13 0x8000),
    (regionId_eq_iff a .extram).trans (range_iff_match a 13 0xA000),
    (regionId_eq_iff a .wram0).trans (range_iff_match a 12 0xC000),
    (regionId_eq_iff a .wramN).trans (range_iff_match a 12 0xD000),
    (regionId_eq_iff a .echo).trans ?_, (regionId_eq_iff a .oam).trans ?_,
    (regionId_eq_iff a .unusable).trans ?_,
    (regionId_eq_iff a .io).trans (range_iff_match a 7 0xFF00),
    (regionId_eq_iff a .hram).trans ?_,
    (regionId_eq_iff a .ie).trans (range_iff_match a 0 0xFFFF)⟩
  · exact range_iff_match_or a 12 0xE000 <| range_iff_match_or a 11 0xF000 <|
      range_iff_match_or a 10 0xF800 <| range_iff_match a 9 0xFC00
  · exact range_iff_match_or a 7 0xFE00 <| range_iff_match a 5 0xFE80
  · exact range_iff_match_or a 5 0xFEA0 <| range_iff_match a 6 0xFEC0
  · exact range_iff_match_or a 6 0xFF80 <| range_iff_match_or a 5 0xFFC0 <|
      range_iff_match_or a 4 0xFFE0 <| range_iff_match_or a 3 0xFFF0 <|
      range_iff_match_or a 2 0xFFF8 <| range_iff_match_or a 1 0xFFFC <| range_iff_match a 0 0xFFFE

/-! ### The region select (R42) -/

theorem Region.id_lt (r : Region) : r.id.toNat < 12 := by
  cases r <;> decide

theorem regionSel_getLsbD (a : Addr) {k : Nat} (hk : k < 12) :
    (regionSel a).getLsbD k = true ↔ (regionId a).toNat = k := by
  rw [regionSel, BitVec.getLsbD_shiftLeft, BitVec.getLsbD_one]
  simp only [hk, decide_true, Bool.true_and, Bool.and_eq_true, Bool.not_eq_true', decide_eq_false_iff_not,
    decide_eq_true_eq, Nat.zero_lt_succ]
  omega

/-- Settles O8: the outputs of every request that completes are coherent with its address. -/
theorem regionSelectIsDrivenInEveryOperation : Obligations.RegionSelectIsDrivenInEveryOperation :=
  ⟨fun a _ hk => regionSel_getLsbD a hk, fun a => (regionOf a).id_lt,
    fun _ _ _ h => ⟨(exec_coherent h).region_id, (exec_coherent h).region_sel⟩⟩

end Sys2Proof.Machine

/-! PROOFS. The derived rules of the switch procedure, and the lifecycle operations
(41_bank_controller.md R186, R202, 70_reset_and_hazards.md R250 to R258). -/

namespace Sys2Proof.Machine

/-! ### Which banks are in range (R186) -/

theorem trySwitch_applied_iff (a : Addr) (b : BitVec 7) (s : State) :
    (trySwitch a b s).out.bsrCode = .applied ↔ bankStart b + romBankSize ≤ s.romSize := by
  by_cases h : bankStart b + romBankSize ≤ s.romSize
  · rw [trySwitch_applied h]
    exact iff_of_true rfl h
  · rw [trySwitch_rejected (Nat.not_le.1 h)]
    exact iff_of_false nofun h

theorem bankEnd_eq (b : BitVec 7) : bankStart b + romBankSize = (b.toNat + 1) * 0x4000 :=
  (Nat.succ_mul _ _).symm

/-- The window of a session is that of its current bank, which is inside the image. -/
theorem State.Session.currentBank_inRange {s : State} (h : s.Session) :
    bankStart s.currentBank + romBankSize ≤ s.romSize := by
  rw [bankStart, ← h.base_of_bank]
  exact h.window_in_image

theorem State.Session.withBank_current {s : State} (h : s.Session) :
    s.withBank s.currentBank (BitVec.ofNat 21 (bankStart s.currentBank)) = s := by
  have hbase : BitVec.ofNat 21 (bankStart s.currentBank) = s.romBankBase :=
    BitVec.eq_of_toNat_eq ((bankStart_toNat _).trans h.base_of_bank.symm)
  rw [hbase]; rfl

/-- Every image a session may have holds banks 0 and 1. -/
theorem State.Session.low_bank_inRange {s : State} (h : s.Session) {b : BitVec 7}
    (hb : b.toNat ≤ 1) : bankStart b + romBankSize ≤ s.romSize := by
  have hmin : minRomSize = 0x8000 := rfl
  have hsize := h.rom_size
  rw [bankEnd_eq]
  omega

/-- Settles O36: all four parts are about the end of a bank and the size of the image. -/
theorem trySwitchIdempotenceAndRange : Obligations.TrySwitchIdempotenceAndRange := by
  intro a s hinv ha
  have hs := hinv.session ha
  have hiff (b : BitVec 7) :
      (trySwitch a b s).out.bsrCode = .applied ↔ (b.toNat + 1) * 0x4000 ≤ s.romSize := by
    rw [trySwitch_applied_iff, bankEnd_eq]
  refine ⟨?_, fun b hsize => ?_, (trySwitch_applied_iff a _ s).2 (hs.low_bank_inRange (by decide)),
    hiff⟩
  · rw [trySwitch_applied hs.currentBank_inRange, hs.withBank_current]
    rfl
  · rw [hiff, hsize, ← BitVec.toNat_inj, ← BitVec.toNat_inj]
    simp only [BitVec.toNat_ofNat, Nat.reducePow, Nat.reduceMod]
    omega

/-! ### Zero select bits (R97, R192, R202) -/

/-- A slot-1 write that asks for bank 0 or 1 is applied, in every session. -/
theorem exec_st8MbcS1_low_bank {a : Addr} {v : Byte} {b : BitVec 7} {s t : State} (hs : s.Session)
    (ha : s.active = true) (hw : WellFormed (.st8MbcS1 a v))
    (hb : mbcWrite a v s = bankedWrite a b s) (hlow : b.toNat ≤ 1)
    (ht : exec (.st8MbcS1 a v) s = .next t) : t.currentBank = b := by
  rw [exec_st8MbcS1_of_banked ha hw hb, trySwitch_applied (hs.low_bank_inRange hlow)] at ht
  rw [← Host.Outcome.next.inj ht]
  rfl

theorem ne_zero_of_one_le {b : BitVec 7} (h : 1 ≤ b.toNat) : b ≠ 0#7 := by
  rintro rfl
  exact absurd h (by decide)

/-- R97: whatever the bank of before, Type1 never asks for bank 0. -/
theorem one_le_bankT1 (v : Byte) (cb : BitVec 7) : 1 ≤ (bankT1 v cb).toNat := by
  rw [bankT1_toNat]; split <;> omega

theorem bankT5_eq_zero_iff (v : Byte) : bankT5 v = 0#7 ↔ v.toNat % 128 = 0 := by
  rw [← BitVec.toNat_inj, bankT5_toNat]; rfl

/-- Settles O37: the bounds are those the invariant keeps, and a low bank is always applied. -/
theorem bankZeroRulesByVariant : Obligations.BankZeroRulesByVariant := by
  refine ⟨fun v cb => ⟨ne_zero_of_one_le (one_le_bankT1 v cb), ne_zero_of_one_le (one_le_bankT3 v),
    bankT5_eq_zero_iff v⟩, fun a v s t hinv ha hw ht => ?_⟩
  have hs := hinv.session ha
  obtain ⟨hct, -, hact, -⟩ := onlyTheListedRequestsWriteRegisters _ s t hw rfl ht
  have hallowed : bankAllowed s.controllerType t.currentBank :=
    hct ▸ ((hinv.exec ht).session (hact.trans ha)).bank_allowed
  refine ⟨fun h1 hv => ?_, fun h1 => ?_, fun h3 hv => ?_, fun h5 hv => ?_, fun hun => ?_⟩
  · have hcb := hs.bank_allowed
    rw [h1] at hcb
    have hb : bankT1 v s.currentBank = 1#7 := by
      apply BitVec.eq_of_toNat_eq
      rw [bankT1_toNat, if_pos hv, Nat.div_eq_of_lt (Nat.lt_succ_of_le hcb.2)]
      rfl
    exact exec_st8MbcS1_low_bank hs ha hw (hb ▸ mbcWrite_type1 a v h1) (by decide) ht
  · rw [h1] at hallowed
    exact hallowed
  · have hb : bankT3 v = 1#7 := by
      apply BitVec.eq_of_toNat_eq
      rw [bankT3_toNat, if_pos hv]
      rfl
    exact exec_st8MbcS1_low_bank hs ha hw (hb ▸ mbcWrite_type3 a v h3) (by decide) ht
  · have hb : bankT5 v = 0#7 := (bankT5_eq_zero_iff v).2 hv
    exact exec_st8MbcS1_low_bank hs ha hw (hb ▸ mbcWrite_type5 a v h5) (by decide) ht
  · rcases hun with h | h | h <;> rw [h] at hallowed <;> exact hallowed

/-! ### The lifecycle operations (R250 to R256) -/

/-- Settles O40: the state is written out by `afterInit`. -/
theorem initZeroesTheRegisterFile : Obligations.InitZeroesTheRegisterFile :=
  fun a s => ⟨afterInit a s, rfl, rfl, rfl, rfl, rfl, rfl, rfl, rfl, rfl, fun _ => rfl, rfl, rfl, rfl,
    rfl⟩

/-- Settles O43: the state is written out by `afterDeinit`. -/
theorem deinitReleasesTheStorage : Obligations.DeinitReleasesTheStorage :=
  fun a s => ⟨afterDeinit a s, rfl, rfl, rfl, rfl, rfl, rfl, rfl, rfl, rfl⟩

/-- Settles O42: a RESET overwrites every field the two states may differ in. -/
theorem resetForgetsTheOldSession : Obligations.ResetForgetsTheOldSession := by
  rintro a ⟨⟩ ⟨⟩ rfl rfl rfl rfl rfl
  rfl

theorem exec_reset_romTooSmall {a : Addr} {s : State} (h : s.rom = none ∨ s.romSize < minRomSize) :
    exec (.reset a) s = .refused .romTooSmall := by
  change execReset a s = _
  unfold execReset
  split
  · rfl
  · next r hr =>
    rcases h with h | h
    · exact absurd (hr.symm.trans h) nofun
    · exact if_pos (romSize_of_some hr ▸ h)

theorem exec_reset_failed {a : Addr} {s : State} {r : Rom} (hr : s.rom = some r)
    (hsize : minRomSize ≤ r.size) (hfail : s.pins.allocOk = false) :
    exec (.reset a) s = .next (afterFailedReset a s) := by
  change execReset a s = _
  simp [execReset, hr, Nat.not_lt.2 hsize, hfail]

theorem resetOut_of_fallback {a : Addr} {t : Byte} (h : isFallback t = true) :
    resetOut a t = raise .unknownCartType (t.setWidth 16) { idleOut a with resetStatus := .ok } :=
  if_pos h

theorem resetOut_of_listed {a : Addr} {t : Byte} (h : isFallback t = false) :
    resetOut a t = { idleOut a with resetStatus := .ok } :=
  if_neg (by simp [h])

/-- The outputs of a successful RESET beside its diagnostic (R47). -/
theorem resetOut_idle (a : Addr) (t : Byte) :
    (resetOut a t).calls = [] ∧ (resetOut a t).rspRdata = 0x0000#16 ∧
      (resetOut a t).bsrCode = .none := by
  unfold resetOut
  split <;> exact ⟨rfl, rfl, rfl⟩

/-- The diagnostic of a successful RESET (R180). -/
theorem resetOut_diag (a : Addr) (t : Byte) :
    if isFallback t then
      (resetOut a t).diagValid = true ∧ (resetOut a t).diagCode = .unknownCartType ∧
        (resetOut a t).diagInfo = t.setWidth 16
    else (resetOut a t).diagValid = false := by
  split
  · next h => rw [resetOut_of_fallback h]; exact ⟨rfl, rfl, rfl⟩
  · next h => rw [resetOut_of_listed (by simpa using h)]; rfl

/-- Settles O41: the refusal, the failed allocation and the new session. -/
theorem resetFollowsItsProcedure : Obligations.ResetFollowsItsProcedure := by
  intro a s
  refine ⟨exec_reset_romTooSmall, fun r hr hsize hfail => ?_, fun r hr hsize hok => ?_⟩
  · exact ⟨afterFailedReset a s, exec_reset_failed hr hsize hfail, rfl, rfl, rfl, rfl, rfl, rfl, rfl,
      rfl⟩
  · obtain ⟨hcalls, hrdata, hbsr⟩ := resetOut_idle a (Rom.byte r cartTypeOffset)
    have hwram (o : Nat) (ho : o < 0x2000) : ∃ b, (afterReset a r s).readWram o = .ok b :=
      ⟨_, readWram_ok rfl ho⟩
    have hhram (k : Nat) (hk : k < 127) : (afterReset a r s).readHram k = .ok 0x00#8 :=
      readHram_ok hk
    exact ⟨afterReset a r s, exec_reset_allocated hr hsize hok, rfl, rfl, rfl, rfl, hwram, hhram, rfl,
      rfl, rfl, rfl, rfl, rfl, resetOut_resetStatus a _, hcalls, hrdata, hbsr, resetOut_diag a _⟩

/-! ### Runs (R258) -/

/-- A run goes on from the state its first step leads to. -/
theorem run_succ {k : Nat} {s t : State} (h : step s = .next t) :
    Host.Core.run core (k + 1) s = Host.Core.run core k t := by
  have hstep : core.step s = .next t := h
  simp only [Host.Core.run, hstep]

/-- Two cycles that present requests run the two meanings in turn. -/
theorem steps_of_two_requests {s t u : State} {c d : Cycle} {l : List Input} {i j : Instr}
    (hs : s.inputs = .cycle c :: .cycle d :: l) (hc : c.reqValid = true) (hd : d.reqValid = true)
    (hi : decode c.word = .ok i) (hj : decode d.word = .ok j)
    (ht : exec i ((s.withInputs (.cycle d :: l)).withPins c.pins) = .next t)
    (hti : t.inputs = .cycle d :: l)
    (hu : exec j ((t.withInputs l).withPins d.pins) = .next u) :
    step s = .next t ∧ step t = .next u :=
  ⟨(step_of_request hs hc hi).trans ht, (step_of_request hti hd hj).trans hu⟩

/-- Settles O56, step by step. -/
theorem bootFromPowerUpReachesReset : Obligations.BootFromPowerUpReachesReset := by
  intro p q o
  have hinit : decode 0x400000000#35 = .ok (.init 0#16) := by decide
  have hreset : decode 0x500000000#35 = .ok (.reset 0#16) := by decide
  refine (run_succ ((step_of_request rfl rfl hinit).trans rfl)).trans ?_
  refine (run_succ ((step_of_image rfl).trans rfl)).trans ?_
  refine (run_succ ((step_of_request rfl rfl hreset).trans
    (exec_reset_allocated rfl (le_refl minRomSize) rfl))).trans ?_
  rfl

end Sys2Proof.Machine

/-! PROOFS. A request sees what the request before it wrote, and aliased addresses read one byte
(20_memory.md R65, R66, R71, R72). -/

namespace Sys2Proof.Machine

/-! ### Bank selects (R72) -/

/-- In a session that meets the invariant, LD8.ROMN reads the image at the offset of the current bank. -/
theorem exec_ld8RomN_of_session {s : State} {r : Rom} (hs : s.Session) (ha : s.active = true)
    (hr : s.rom = some r) (a : Addr) :
    exec (.ld8RomN a) s = .next (s.withOut
      (loadOut a (Rom.byte r (s.currentBank.toNat * 0x4000 + a.toNat % 0x4000)))) := by
  have hoff : romNOffset s a = s.currentBank.toNat * 0x4000 + a.toNat % 0x4000 := by
    rw [romNOffset, romIndex_eq, hs.base_of_bank]; rfl
  have hwin : s.romBankBase.toNat + 0x4000 ≤ r.size := romSize_of_some hr ▸ hs.window_in_image
  rw [← hoff]
  exact loadRomNReadsTheBankWindow a s r ha hr hwin

/-- Settles O57: the store keeps the invariant, under which the window is that of the current bank. -/
theorem bankSwitchIsSeenByTheNextLoad : Obligations.BankSwitchIsSeenByTheNextLoad := by
  intro s c d l a a' v r hinv ha hr hin hc hd hi hj
  let s' := (s.withInputs (.cycle d :: l)).withPins c.pins
  let t := mbcWrite a v s'
  have hmem : Instr.st8MbcS1 a v ∈ mbcStores a v := by simp [mbcStores]
  have hstore : exec (.st8MbcS1 a v) s' = .next t := exec_mbcStore hmem ha
  obtain ⟨-, -, -, hreg, happlied, hreport⟩ :=
    controllerWritesTouchOnlyTheBankRegisters a v _ s' t hmem hstore
  have htinv : t.Inv := (hinv.presented hin).exec hstore
  have hta : t.active = true := hreg.active.trans ha
  have htr : t.rom = some r := (mbcWrite_keeps_image a v s').2.1.trans hr
  have hti : t.inputs = .cycle d :: l := hreg.inputs
  have hload := exec_ld8RomN_of_session ((htinv.presented hti).session hta) hta htr a'
  obtain ⟨hstep, hstep'⟩ := steps_of_two_requests hin hc hd hi hj hstore hti hload
  exact ⟨t, _, hstep, hstep', rfl, fun h => (happlied h).1, fun h => (hreport h).currentBank⟩

/-! ### Aliases (R66) -/

theorem wramIndex_congr {a a' : Addr} (h : a &&& 0x0FFF#16 = a' &&& 0x0FFF#16) :
    wramIndex a = wramIndex a' :=
  congrArg BitVec.toNat h

/-- Settles O58: the two addresses name one offset of their memory. -/
theorem addressAliasesReadTheSameByte : Obligations.AddressAliasesReadTheSameByte := by
  intro a a' s hinv ha hlow
  have hs := hinv.session ha
  obtain ⟨v, hv⟩ := hs.exists_readWram (wramNOffset_lt (hinv.wramBase_le ha) a)
  refine ⟨fun i hi j hj => ?_, fun hbase i hi => ?_, fun hbase => ?_⟩
  · have hv' : s.readWram (wramNOffset s a') = .ok v := wramNOffset_congr rfl hlow ▸ hv
    exact ⟨_, _, exec_bankNLoad_of_readWram ha hi hv, exec_bankNLoad_of_readWram ha hj hv', rfl⟩
  · have hoff : wramNOffset s a = wram0Offset a' := by
      rw [wramNOffset, hbase, wram0Offset, ← wramIndex_congr hlow]
      exact Nat.zero_add _
    exact ⟨_, _, exec_bankNLoad_of_readWram ha hi hv, inSession_completeLoad ha (hoff ▸ hv), rfl⟩
  · exact loadRomN_eq_loadRom0_of_base_zero ha hs.rom_size hbase a

/-! ### Stores (R71) -/

/-- Every store to working RAM completes, and stores its byte at its offset alone. -/
theorem exec_wramStore {i : Instr} {a : Addr} {v : Byte} {p : Nat} {s : State} (hinv : s.Inv)
    (ha : s.active = true)
    (hi : (i = .st8Wram0 a v ∧ p = wram0Offset a) ∨
      ((i = .st8WramN a v ∨ i ∈ echoStores a v) ∧ p = wramNOffset s a)) :
    ∃ t, exec i s = .next t ∧ s.StoresWram t a p v := by
  obtain ⟨b, -, hb, -⟩ := (hinv.session ha).wram_allocated
  have hbankN : ∃ t, exec (.st8WramN a v) s = .next t ∧ s.StoresWram t a (wramNOffset s a) v :=
    inSession_writeWram a v ha hb (wramNOffset_lt (hinv.wramBase_le ha) a)
  rcases hi with ⟨rfl, rfl⟩ | ⟨rfl | hi, rfl⟩
  · exact inSession_writeWram a v ha hb (wram0Offset_lt a)
  · exact hbankN
  · rw [exec_echoStore hi]
    exact hbankN

/-- Every load from working RAM returns the byte at its offset. -/
theorem exec_wramLoad {j : Instr} {a : Addr} {v : Byte} {p : Nat} {s : State} (ha : s.active = true)
    (hj : (j = .ld8Wram0 a ∧ p = wram0Offset a) ∨ (j ∈ bankNLoads a ∧ p = wramNOffset s a))
    (hv : s.readWram p = .ok v) : exec j s = .next (s.withOut (loadOut a v)) := by
  rcases hj with ⟨rfl, rfl⟩ | ⟨hj, rfl⟩
  · exact inSession_completeLoad ha hv
  · exact exec_bankNLoad_of_readWram ha hj hv

/-- Settles O59: the store leaves its byte at the offset that the load reads. -/
theorem storesAreSeenByTheNextRequest : Obligations.StoresAreSeenByTheNextRequest := by
  intro s c d l i j a a' v hinv ha hin hc hd hi hj hrows
  let s' := (s.withInputs (.cycle d :: l)).withPins c.pins
  have hrun {t u : State} (ht : exec i s' = .next t) (hti : t.inputs = .cycle d :: l)
      (hu : exec j ((t.withInputs l).withPins d.pins) = .next u) :
      Host.Core.run core 2 s = .next u := by
    obtain ⟨hstep, hstep'⟩ := steps_of_two_requests hin hc hd hi hj ht hti hu
    exact (run_succ hstep).trans ((run_succ hstep').trans rfl)
  rcases hrows with ⟨p, hstore, hload⟩ | ⟨hstore, hload, hw, hidx⟩
  · obtain ⟨t, ht, hst⟩ := exec_wramStore (hinv.presented hin) ha hstore
    have hbase : wramNOffset s a' = wramNOffset t a' :=
      (wramNOffset_congr hst.registers.workingRamBankBase rfl).symm
    rw [hbase] at hload
    have hu := exec_wramLoad (s := (t.withInputs l).withPins d.pins)
      (hst.registers.active.trans ha) hload hst.stored
    exact ⟨_, hrun ht hst.registers.inputs hu, rfl⟩
  · obtain ⟨t, ht, hst⟩ := storeHramWritesOneByte a v s' i ha hstore hw
    have hread : t.readHram (hramIndex a') = .ok v := hidx ▸ hst.stored
    have hu := (exec_hramLoad hload (wellFormed_of_decode hj) _).1.trans
      (inSession_completeLoad (s := (t.withInputs l).withPins d.pins)
        (hst.registers.active.trans ha) hread)
    exact ⟨_, hrun ht hst.registers.inputs hu, rfl⟩

end Sys2Proof.Machine
